-- ==== Sys2Proof/Word.lean ====
section
/-! DEFINITION. The machine's widths: 8-bit bytes, 16-bit words, and register numbers 0..15 (spec rules R6, R7, R21). -/

namespace Sys2Proof

/-- An 8-bit value: a `V` register, a timer, a memory byte, the immediate `NN` (R7, R21). -/
abbrev Byte := BitVec 8

/-- A 16-bit value: `PC`, `I`, a stack entry, an opcode, the key latch (R6, R20). -/
abbrev Word := BitVec 16

/-- The number of a `V` register, 0..15 (R21, R71): every value names a register. -/
abbrev Reg := Fin 16

/-- The 64 by 32 framebuffer as its 2048 cells of one bit: bit `j` is cell `j` (R30; the port `Render` is
2048 bits wide, R40). -/
abbrev Frame := BitVec 2048

end Sys2Proof
end

