-- ==== Sys2Proof/Syntax.lean ====
section
/-! DEFINITION. The 34 instructions of the opcode map (R75), one constructor per row of spec/opcode_table.json, in the table's order. -/

namespace Sys2Proof

/-- The instruction set, closed at 34 patterns (R1, R75, R78). Operands are the fields of R71: `x` and `y` register
numbers, `nn` a byte, `nnn` a 12-bit address, `n` the sprite's row count (a count; its range 0..15 is checked in
`Instr.wellFormed`). -/
inductive Instr where
  /-- `00E0` CLS (R142). -/
  | cls
  /-- `00EE` RET (R106). -/
  | ret
  /-- `1NNN` JP addr (R107). -/
  | jp (nnn : BitVec 12)
  /-- `2NNN` CALL addr (R108). -/
  | call (nnn : BitVec 12)
  /-- `3XNN` SE Vx, byte (R113). -/
  | seVxNn (x : Reg) (nn : Byte)
  /-- `4XNN` SNE Vx, byte (R114). -/
  | sneVxNn (x : Reg) (nn : Byte)
  /-- `5XY0` SE Vx, Vy (R115). -/
  | seVxVy (x y : Reg)
  /-- `6XNN` LD Vx, byte (R120). -/
  | ldVxNn (x : Reg) (nn : Byte)
  /-- `7XNN` ADD Vx, byte (R121). -/
  | addVxNn (x : Reg) (nn : Byte)
  /-- `8XY0` LD Vx, Vy (R122). -/
  | ldVxVy (x y : Reg)
  /-- `8XY1` OR Vx, Vy (R123). -/
  | orVxVy (x y : Reg)
  /-- `8XY2` AND Vx, Vy (R124). -/
  | andVxVy (x y : Reg)
  /-- `8XY3` XOR Vx, Vy (R125). -/
  | xorVxVy (x y : Reg)
  /-- `8XY4` ADD Vx, Vy (R127). -/
  | addVxVy (x y : Reg)
  /-- `8XY5` SUB Vx, Vy (R128). -/
  | sub (x y : Reg)
  /-- `8XY6` SHR Vx; `y` is decoded and ignored (R129, R77). -/
  | shr (x y : Reg)
  /-- `8XY7` SUBN Vx, Vy (R130). -/
  | subn (x y : Reg)
  /-- `8XYE` SHL Vx; `y` is decoded and ignored (R131, R77). -/
  | shl (x y : Reg)
  /-- `9XY0` SNE Vx, Vy (R116). -/
  | sneVxVy (x y : Reg)
  /-- `ANNN` LD I, addr (R137). -/
  | ldINnn (nnn : BitVec 12)
  /-- `BNNN` JP V0, addr (R109). -/
  | jpV0 (nnn : BitVec 12)
  /-- `CXNN` RND Vx, byte (R132). -/
  | rnd (x : Reg) (nn : Byte)
  /-- `DXYN` DRW Vx, Vy, nibble (R143). -/
  | drw (x y : Reg) (n : Nat)
  /-- `EX9E` SKP Vx (R148). -/
  | skp (x : Reg)
  /-- `EXA1` SKNP Vx (R149). -/
  | sknp (x : Reg)
  /-- `FX07` LD Vx, DT (R154). -/
  | ldVxDt (x : Reg)
  /-- `FX0A` LD Vx, K (R150). -/
  | ldVxK (x : Reg)
  /-- `FX15` LD DT, Vx (R155). -/
  | ldDtVx (x : Reg)
  /-- `FX18` LD ST, Vx (R156). -/
  | ldStVx (x : Reg)
  /-- `FX1E` ADD I, Vx (R138). -/
  | addIVx (x : Reg)
  /-- `FX29` LD F, Vx (R139). -/
  | ldFVx (x : Reg)
  /-- `FX33` LD B, Vx (R159). -/
  | ldBVx (x : Reg)
  /-- `FX55` LD [I], Vx (R160). -/
  | ldMemVx (x : Reg)
  /-- `FX65` LD Vx, [I] (R161). -/
  | ldVxMem (x : Reg)
  deriving DecidableEq, Repr

end Sys2Proof
end

