-- ==== Sys2Proof/Decode.lean ====
section
/-! DEFINITION. The opcode map (R75), the decoder (R74, R81) and the encoder (R72, R81). -/

namespace Sys2Proof

/-- Why bytes are not an instruction. -/
inductive DecodeError where
  /-- Fewer than the two bytes every instruction has (R70). -/
  | truncated
  /-- A word that no row of the opcode map selects (R76). -/
  | invalidOpcode (op : Word)
  deriving DecidableEq, Repr

/-- `X = op[11:8]` (R71). -/
def fieldX (op : Word) : Reg := ⟨(op.extractLsb' 8 4).toNat, (op.extractLsb' 8 4).isLt⟩

/-- `Y = op[7:4]` (R71). -/
def fieldY (op : Word) : Reg := ⟨(op.extractLsb' 4 4).toNat, (op.extractLsb' 4 4).isLt⟩

/-- `N = op[3:0]`, a row count (R71, R73). -/
def fieldN (op : Word) : Nat := (op.extractLsb' 0 4).toNat

/-- `NN = op[7:0]` (R71). -/
def fieldNN (op : Word) : Byte := op.extractLsb' 0 8

/-- `NNN = op[11:0]` (R71). -/
def fieldNNN (op : Word) : BitVec 12 := op.extractLsb' 0 12

/-- A row of the opcode map: the bits it fixes (`mask`), their values (`fixed`, the table's "match"), and the
instruction built from the free fields (R75, R81). -/
structure OpcodeRow where
  mask : Word
  fixed : Word
  build : Word → Instr

/-- `op AND mask = match` (R74). -/
def OpcodeRow.selects (r : OpcodeRow) (op : Word) : Bool := op &&& r.mask == r.fixed

/-- The complete opcode map in the source's order (R75): mask, match, instruction. -/
def opcodeMap : List OpcodeRow := [
  ⟨0xFFFF, 0x00E0, fun _ => .cls⟩,
  ⟨0xFFFF, 0x00EE, fun _ => .ret⟩,
  ⟨0xF000, 0x1000, fun op => .jp (fieldNNN op)⟩,
  ⟨0xF000, 0x2000, fun op => .call (fieldNNN op)⟩,
  ⟨0xF000, 0x3000, fun op => .seVxNn (fieldX op) (fieldNN op)⟩,
  ⟨0xF000, 0x4000, fun op => .sneVxNn (fieldX op) (fieldNN op)⟩,
  ⟨0xF00F, 0x5000, fun op => .seVxVy (fieldX op) (fieldY op)⟩,
  ⟨0xF000, 0x6000, fun op => .ldVxNn (fieldX op) (fieldNN op)⟩,
  ⟨0xF000, 0x7000, fun op => .addVxNn (fieldX op) (fieldNN op)⟩,
  ⟨0xF00F, 0x8000, fun op => .ldVxVy (fieldX op) (fieldY op)⟩,
  ⟨0xF00F, 0x8001, fun op => .orVxVy (fieldX op) (fieldY op)⟩,
  ⟨0xF00F, 0x8002, fun op => .andVxVy (fieldX op) (fieldY op)⟩,
  ⟨0xF00F, 0x8003, fun op => .xorVxVy (fieldX op) (fieldY op)⟩,
  ⟨0xF00F, 0x8004, fun op => .addVxVy (fieldX op) (fieldY op)⟩,
  ⟨0xF00F, 0x8005, fun op => .sub (fieldX op) (fieldY op)⟩,
  ⟨0xF00F, 0x8006, fun op => .shr (fieldX op) (fieldY op)⟩,
  ⟨0xF00F, 0x8007, fun op => .subn (fieldX op) (fieldY op)⟩,
  ⟨0xF00F, 0x800E, fun op => .shl (fieldX op) (fieldY op)⟩,
  ⟨0xF00F, 0x9000, fun op => .sneVxVy (fieldX op) (fieldY op)⟩,
  ⟨0xF000, 0xA000, fun op => .ldINnn (fieldNNN op)⟩,
  ⟨0xF000, 0xB000, fun op => .jpV0 (fieldNNN op)⟩,
  ⟨0xF000, 0xC000, fun op => .rnd (fieldX op) (fieldNN op)⟩,
  ⟨0xF000, 0xD000, fun op => .drw (fieldX op) (fieldY op) (fieldN op)⟩,
  ⟨0xF0FF, 0xE09E, fun op => .skp (fieldX op)⟩,
  ⟨0xF0FF, 0xE0A1, fun op => .sknp (fieldX op)⟩,
  ⟨0xF0FF, 0xF007, fun op => .ldVxDt (fieldX op)⟩,
  ⟨0xF0FF, 0xF00A, fun op => .ldVxK (fieldX op)⟩,
  ⟨0xF0FF, 0xF015, fun op => .ldDtVx (fieldX op)⟩,
  ⟨0xF0FF, 0xF018, fun op => .ldStVx (fieldX op)⟩,
  ⟨0xF0FF, 0xF01E, fun op => .addIVx (fieldX op)⟩,
  ⟨0xF0FF, 0xF029, fun op => .ldFVx (fieldX op)⟩,
  ⟨0xF0FF, 0xF033, fun op => .ldBVx (fieldX op)⟩,
  ⟨0xF0FF, 0xF055, fun op => .ldMemVx (fieldX op)⟩,
  ⟨0xF0FF, 0xF065, fun op => .ldVxMem (fieldX op)⟩]

/-- Decode of a 16-bit opcode (R74): the row that selects it, or `InvalidOpcode`. The order of the rows does not
matter (`Laws/Decode.lean` shows that no two of them select a common word). -/
def decodeWord (op : Word) : Except DecodeError Instr :=
  match opcodeMap.find? (·.selects op) with
  | some r => .ok (r.build op)
  | none => .error (.invalidOpcode op)

/-- Bits 15:8 from the byte at the lower address, bits 7:0 from the next (R55, R70). -/
def wordOfBytes (hi lo : Byte) : Word := hi ++ lo

/-- The byte at the lower address of an instruction, bits 15:8 (R55, R70). -/
def highByte (op : Word) : Byte := op.extractLsb' 8 8

/-- The byte at the higher address of an instruction, bits 7:0 (R55, R70). -/
def lowByte (op : Word) : Byte := op.extractLsb' 0 8

/-- Decode from bytes in memory order: the instruction and the bytes after it, total on any bytes (R70, R81). -/
def decode : List Byte → Except DecodeError (Instr × List Byte)
  | hi :: lo :: rest =>
    match decodeWord (wordOfBytes hi lo) with
    | .ok i => .ok (i, rest)
    | .error e => .error e
  | _ => .error .truncated

/-- A nibble field holding a register number (R71, R72). -/
def regNibble (r : Reg) : BitVec 4 := BitVec.ofNat 4 r.val

/-- Format `A`: family, `NNN` (R72). -/
def formatA (family : BitVec 4) (nnn : BitVec 12) : Word := family ++ nnn

/-- Format `XB`: family, `X`, `NN` (R72). -/
def formatXB (family : BitVec 4) (x : Reg) (nn : Byte) : Word := family ++ regNibble x ++ nn

/-- Formats `XY` and `XYN`: family, `X`, `Y`, and a function nibble or `N` (R72). -/
def formatXY (family : BitVec 4) (x y : Reg) (last : BitVec 4) : Word := family ++ regNibble x ++ regNibble y ++ last

/-- Format `XF`: family, `X`, function byte (R72). -/
def formatXF (family : BitVec 4) (x : Reg) (fn : Byte) : Word := family ++ regNibble x ++ fn

/-- The opcode of an instruction, from the layouts of R72 and the patterns of R75. -/
def encode : Instr → Word
  | .cls => 0x00E0
  | .ret => 0x00EE
  | .jp nnn => formatA 0x1 nnn
  | .call nnn => formatA 0x2 nnn
  | .seVxNn x nn => formatXB 0x3 x nn
  | .sneVxNn x nn => formatXB 0x4 x nn
  | .seVxVy x y => formatXY 0x5 x y 0x0
  | .ldVxNn x nn => formatXB 0x6 x nn
  | .addVxNn x nn => formatXB 0x7 x nn
  | .ldVxVy x y => formatXY 0x8 x y 0x0
  | .orVxVy x y => formatXY 0x8 x y 0x1
  | .andVxVy x y => formatXY 0x8 x y 0x2
  | .xorVxVy x y => formatXY 0x8 x y 0x3
  | .addVxVy x y => formatXY 0x8 x y 0x4
  | .sub x y => formatXY 0x8 x y 0x5
  | .shr x y => formatXY 0x8 x y 0x6
  | .subn x y => formatXY 0x8 x y 0x7
  | .shl x y => formatXY 0x8 x y 0xE
  | .sneVxVy x y => formatXY 0x9 x y 0x0
  | .ldINnn nnn => formatA 0xA nnn
  | .jpV0 nnn => formatA 0xB nnn
  | .rnd x nn => formatXB 0xC x nn
  | .drw x y n => formatXY 0xD x y (BitVec.ofNat 4 n)
  | .skp x => formatXF 0xE x 0x9E
  | .sknp x => formatXF 0xE x 0xA1
  | .ldVxDt x => formatXF 0xF x 0x07
  | .ldVxK x => formatXF 0xF x 0x0A
  | .ldDtVx x => formatXF 0xF x 0x15
  | .ldStVx x => formatXF 0xF x 0x18
  | .addIVx x => formatXF 0xF x 0x1E
  | .ldFVx x => formatXF 0xF x 0x29
  | .ldBVx x => formatXF 0xF x 0x33
  | .ldMemVx x => formatXF 0xF x 0x55
  | .ldVxMem x => formatXF 0xF x 0x65

/-- The bytes of an instruction in memory order: high byte first (R55, R70). -/
def encodeBytes (i : Instr) : List Byte := [highByte (encode i), lowByte (encode i)]

/-- The opcode whose bits the opcode table numbers `w`: one 16-bit word, the bits above `nbits` zero. -/
def tableOpcode (nbits w : Nat) : Word := BitVec.ofNat 16 (w % 2 ^ nbits)

/-- The instruction the decoder reads from the word `w` of a table row of `nbits` bits, laid out as the hardware
stores it: big-endian, high byte first (R55, R70). -/
def decodeTableWord (nbits w : Nat) : Option Instr :=
  match decode [highByte (tableOpcode nbits w), lowByte (tableOpcode nbits w)] with
  | .ok (i, _) => some i
  | .error _ => none

end Sys2Proof
end

