-- ==== Sys2Proof/Config.lean ====
section
/-! DEFINITION. The parameters of the engine (R5) and the free input values the spec leaves to the surroundings (R12). -/

namespace Sys2Proof.Config

/-- Bytes of memory: addresses `0x000`..`0xFFF` (R5, R50). -/
abbrev memSize : Nat := 0x1000

/-- First address of the font table (R5, R51). -/
abbrev fontBase : Nat := 0x000

/-- First address of the program and the entry point (R5, R42). -/
abbrev progBase : Nat := 0x200

/-- Largest program length accepted (R5, R196): the length must be below `4096 - 0x200`. -/
abbrev progMax : Nat := 3583

/-- `STACK_MAX_SP`, the largest value `SP` may hold (R5, R27; conflict C4). UNVERIFIED by the source, which also
allows 16: notes/assumptions/8. Safe: the call that differs is a fatal error here. -/
abbrev stackMaxSp : Nat := 15

/-- The font table copied to `0x000`..`0x04F` at reset: the default that R52 offers for the parameter `FONT`.
PRESUMED (R52 marks the bytes as general knowledge): notes/assumptions/5. Unsafe for a claim about the run from
`State.reset` that reads the font; any other table is given to `State.applyReset`. -/
def fontTable : Vector Byte 80 := #v[
  0xF0, 0x90, 0x90, 0x90, 0xF0,  -- 0
  0x20, 0x60, 0x20, 0x20, 0x70,  -- 1
  0xF0, 0x10, 0xF0, 0x80, 0xF0,  -- 2
  0xF0, 0x10, 0xF0, 0x10, 0xF0,  -- 3
  0x90, 0x90, 0xF0, 0x10, 0x10,  -- 4
  0xF0, 0x80, 0xF0, 0x10, 0xF0,  -- 5
  0xF0, 0x80, 0xF0, 0x90, 0xF0,  -- 6
  0xF0, 0x10, 0x20, 0x40, 0x40,  -- 7
  0xF0, 0x90, 0xF0, 0x90, 0xF0,  -- 8
  0xF0, 0x90, 0xF0, 0x10, 0xF0,  -- 9
  0xF0, 0x90, 0xF0, 0x90, 0x90,  -- A
  0xE0, 0x90, 0xE0, 0x90, 0xE0,  -- B
  0xF0, 0x80, 0x80, 0x80, 0xF0,  -- C
  0xE0, 0x90, 0x90, 0x90, 0xE0,  -- D
  0xF0, 0x80, 0xF0, 0x80, 0xF0,  -- E
  0xF0, 0x80, 0xF0, 0x80, 0x80]  -- F

/-- FREE VALUE. The key sample of the `n`-th step when the state schedules none: any of the 65536 values
(R33, U7; notes/assumptions/1). It has no body, so nothing can be proved of it. Safe. -/
opaque keysIn : Nat → BitVec 16

/-- FREE VALUE. The byte on `rnd_in` at the `n`-th executed `CXNN` when the state schedules none: any of the 256
values (R35, R132, U6; notes/assumptions/3). It has no body. Safe. -/
opaque rndIn : Nat → Byte

end Sys2Proof.Config
end

