-- ==== Sys2Proof/Machine/State.lean ====
section
/-! DEFINITION. The machine's state (R20), the reasons a step can stop, and the state after reset (R42). -/

namespace Sys2Proof.Machine

/-- The causes of a fatal error (R171). -/
inductive Cause where
  /-- Decode: the fetched word matches no pattern; info is the word. -/
  | invalidOpcode
  /-- Fetch with `PC > 0xFFE`, info `PC`; or `DXYN`, `FX33`, `FX55`, `FX65` past `0xFFF`, info the lowest address
  of the access above `0xFFF`. -/
  | memoryOutOfBounds
  /-- `2NNN` with `SP = 15`; info is the address of the instruction. -/
  | stackOverflow
  /-- `00EE` with `SP = 0`; info is the address of the instruction. -/
  | stackUnderflow
  /-- `EX9E`, `EXA1` with `V[X] > 15`; info is `V[X]`. -/
  | keyOutOfRange
  /-- Reset with a program of 3584 bytes or more; info is its length. -/
  | programTooLarge
  deriving DecidableEq, Repr

/-- The run state (R37). `info` is the non-negative integer recorded with the cause (R171). -/
inductive Mode where
  | running
  | awaitingKey
  | halted (cause : Cause) (info : Nat)
  | stopped
  deriving DecidableEq, Repr

/-- One sample of the input ports `keys_in` and `quit_in`, taken at the start of a step (R33, R34, R92). -/
structure Sample where
  keys : BitVec 16
  quit : Bool
  deriving DecidableEq, Repr

/-- Memory: the bytes that differ from what an unlisted address reads as (`Memory.unlisted`), addresses strictly
rising (`Memory.wf`). -/
abbrev Memory := List Host.Cell

/-- The complete state (R20), and below it the model's own fields that carry the inputs of R12 into a step and the
`Render` events of R39 out of it (notes/assumptions/1, 3, 4). -/
structure State where
  /-- `V0`..`VF` (R21). -/
  v : Vector Byte 16
  /-- The address register `I` (R23). -/
  i : Word
  /-- `PC` (R24). -/
  pc : Word
  /-- `SP`, the number of return addresses on the stack (R27). -/
  sp : BitVec 8
  /-- The call stack, outside memory (R28). -/
  stack : Vector Word 16
  /-- The 4096 bytes of memory (R29). -/
  mem : Memory
  /-- The framebuffer; bit `j` is cell `j` (R30). -/
  fb : Frame
  /-- The delay timer `DT` (R31). -/
  dt : Byte
  /-- The sound timer `ST` (R32). -/
  st : Byte
  /-- The key latch `K`; bit `k` is key `k` (R33). -/
  k : BitVec 16
  /-- The "screen dirty" flag (R36). -/
  dirty : Bool
  /-- The run state (R37). -/
  mode : Mode
  /-- Steps completed in the current batch, 0..19 (R38). -/
  phase : Fin 20
  /-- MODEL'S OWN: the samples scheduled for the coming steps, next one first (notes/assumptions/1). -/
  inputs : List Sample
  /-- MODEL'S OWN: how many samples have been taken; the index of the free key sample (notes/assumptions/1). -/
  inputDraws : Nat
  /-- MODEL'S OWN: the random bytes scheduled for the coming `CXNN`s, next one first (notes/assumptions/3). -/
  randoms : List Byte
  /-- MODEL'S OWN: how many random bytes have been taken; the index of the free byte (notes/assumptions/3). -/
  randomDraws : Nat
  /-- MODEL'S OWN: the framebuffers of the `Render` events so far, oldest first (R39, R100; notes/assumptions/4). -/
  renders : List Frame
  deriving DecidableEq, Repr

/-- Why a step stops with no state. The spec's fatal errors are NOT faults of the model: they are next states in
`Mode.halted` (R173). -/
inductive Fault where
  /-- Raised by `00EE` alone, in a state with `SP > 16`: it would read `Stack[k]` with `k > 15`, an entry that does
  not exist (R8, R28). `SP` never exceeds 15 (R27), so no run reaches it. Safe (notes/assumptions/10). -/
  | stackIndex
  deriving DecidableEq, Repr

/-- Why a step refuses an instruction. -/
inductive Refusal where
  /-- An instruction without a meaning yet; no arm of `exec` answers it. Safe. -/
  | notModelled (mnemonic : String)
  deriving DecidableEq, Repr

/-- What a step or an instruction answers. -/
abbrev Result := Host.Outcome State Fault Refusal

/-- The machine right after reset (R42), with the default `FONT` and the empty `PROGRAM` (memory lists nothing:
it reads as the reset image), and the model's own fields empty (notes/assumptions/1, 3, 4, 5, 6). -/
def State.reset : State where
  v := Vector.replicate 16 0
  i := 0
  pc := 0x200
  sp := 0
  stack := Vector.replicate 16 0
  mem := []
  fb := 0
  dt := 0
  st := 0
  k := 0
  dirty := false
  mode := .running
  phase := 0
  inputs := []
  inputDraws := 0
  randoms := []
  randomDraws := 0
  renders := []

end Sys2Proof.Machine
end

