-- ==== Sys2Proof/Machine/Ops.lean ====
section
/-! DEFINITION. The named operations: registers, memory, the call stack, the input ports, raising a fatal error, completing an
instruction, the end of a step, and reset with its arguments. -/

namespace Sys2Proof.Machine

/-! ### Writes of single components -/

/-- `V[x] <- b` (R8, R21). -/
def State.setV (s : State) (x : Reg) (b : Byte) : State := { s with v := s.v.set x.val b x.isLt }

/-- All of `V` at once, for the load of a range (R161). -/
def State.setRegs (s : State) (v : Vector Byte 16) : State := { s with v := v }

/-- `I <- a` (R23). -/
def State.setI (s : State) (a : Word) : State := { s with i := a }

/-- `PC <- a` (R24). -/
def State.setPc (s : State) (a : Word) : State := { s with pc := a }

/-- `SP <- n` (R27). -/
def State.setSp (s : State) (n : BitVec 8) : State := { s with sp := n }

/-- `Stack[n] <- a` (R28); there is no entry `n > 15` to write. -/
def State.setStack (s : State) (n : Nat) (a : Word) : State := { s with stack := s.stack.setIfInBounds n a }

/-- Memory replaced (R29). -/
def State.setMem (s : State) (m : Memory) : State := { s with mem := m }

/-- The framebuffer replaced and `dirty <- 1` (R36, R142, R143). -/
def State.setScreen (s : State) (fb : Frame) : State := { s with fb := fb, dirty := true }

/-- `DT <- b` (R31). -/
def State.setDt (s : State) (b : Byte) : State := { s with dt := b }

/-- `ST <- b` (R32). -/
def State.setSt (s : State) (b : Byte) : State := { s with st := b }

/-- `mode <- m` (R37). -/
def State.setMode (s : State) (m : Mode) : State := { s with mode := m }

/-- `V[x]` (R8). -/
abbrev State.getV (s : State) (x : Reg) : Byte := s.v[x.val]

/-- `VF`, the flag register (R22). -/
def regF : Reg := 15

/-! ### Memory -/

/-- What an address reads as while nothing is listed for it: the reset image (R53) with the default font and no
program: the font table at `0x000`..`0x04F`, zero elsewhere (notes/assumptions/5). -/
def Memory.unlisted (a : Nat) : Byte := Config.fontTable.toList.getD a 0

/-- The byte at address `a` (R58). -/
def Memory.read (m : Memory) (a : Nat) : Byte :=
  match m with
  | [] => Memory.unlisted a
  | c :: rest => if c.1 = a then c.2 else Memory.read rest a

/-- The entries of `m` but those for `a`. -/
def Memory.erase (m : Memory) (a : Nat) : Memory := m.filter (fun c => c.1 != a)

/-- `m` with an entry for `a` put before the first higher address. -/
def Memory.insert (m : Memory) (a : Nat) (b : Byte) : Memory :=
  match m with
  | [] => [(a, b)]
  | c :: rest => if a < c.1 then (a, b) :: c :: rest else c :: Memory.insert rest a b

/-- `Mem[a] <- b`, kept in canonical form: an entry equal to what the unlisted address reads as is not listed. -/
def Memory.write (m : Memory) (a : Nat) (b : Byte) : Memory :=
  if b = Memory.unlisted a then m.erase a else (m.erase a).insert a b

/-- The bytes of `bs` written to `a`, `a + 1`, ... in ascending order (`MemWrite` of R8, after its check). -/
def Memory.writeBytes (m : Memory) (a : Nat) (bs : List Byte) : Memory :=
  match bs with
  | [] => m
  | b :: rest => Memory.writeBytes (m.write a b) (a + 1) rest

/-- The `n` bytes at `a`, `a + 1`, ... (`MemRead` of R8, after its check). -/
def Memory.readBytes (m : Memory) (a n : Nat) : List Byte := (List.range n).map (fun j => m.read (a + j))

/-- The addresses of `m` rise strictly, all of them above `low`. -/
def Memory.risesFrom (m : Memory) (low : Nat) : Bool :=
  match m with
  | [] => true
  | c :: rest => decide (low ≤ c.1) && Memory.risesFrom rest (c.1 + 1)

/-- The canonical form: addresses strictly rising, every one an address of the memory (R50), and no entry equal to
what its address reads as unlisted. -/
def Memory.wf (m : Memory) : Bool :=
  m.risesFrom 0 && m.all (fun c => decide (c.1 < Config.memSize) && c.2 != Memory.unlisted c.1)

/-- The condition of `MemoryOutOfBounds` for an access of `n` bytes at `a` (R54): some byte of it is above `0xFFF`.
An access of no bytes has none. -/
def accessFails (a n : Nat) : Bool := decide (0 < n) && decide (Config.memSize < a + n)

/-- The address recorded with it: the lowest one of the access above `0xFFF` (R54, R171). -/
def faultAddress (a : Nat) : Nat := max a Config.memSize

/-! ### Fatal errors and completion -/

/-- The numeric code of a cause (R171). -/
def Cause.code : Cause → Nat
  | .invalidOpcode => 1
  | .memoryOutOfBounds => 2
  | .stackOverflow => 3
  | .stackUnderflow => 4
  | .keyOutOfRange => 5
  | .programTooLarge => 6

/-- Is the machine in a terminal mode, which only reset leaves (R91, R175)? -/
def Mode.terminal : Mode → Bool
  | .halted _ _ => true
  | .stopped => true
  | .running => false
  | .awaitingKey => false

/-- The address of the instruction being executed: `npc - 2` (R8, R24). -/
def State.instrAddr (s : State) : Word := s.pc - 2

/-- Entry into `Halted(c, info)` (R173) by a step that has advanced `PC`: `PC` holds the instruction's address
again. Every check of an instruction stands before its first write, so nothing else is there to discard. -/
def State.raise (s : State) (c : Cause) (info : Nat) : State := (s.setPc s.instrAddr).setMode (.halted c info)

/-- The instruction completes: `mode <- Running` (R95). -/
def State.complete (s : State) : State := s.setMode .running

/-- An instruction that accesses `n` bytes of memory at `a`, checked as one access before anything changes (R54):
the fatal error, or its effect `done`. -/
def State.access (s : State) (a n : Nat) (done : State) : State :=
  if accessFails a n then s.raise .memoryOutOfBounds (faultAddress a) else done.complete

/-! ### The input ports -/

/-- The sample of `keys_in` and `quit_in` that the next step takes (R33, R34): the one scheduled, else a free key
sample and no termination (notes/assumptions/1, 2). -/
def State.nextSample (s : State) : Sample :=
  match s.inputs with
  | [] => { keys := Config.keysIn s.inputDraws, quit := false }
  | x :: _ => x

/-- `K <- keys_in` (R92), and the sample is used up. -/
def State.takeSample (s : State) : State :=
  { s with k := s.nextSample.keys, inputs := s.inputs.tail, inputDraws := s.inputDraws + 1 }

/-- `RandomByte()` (R8, R35): the byte scheduled for the next `CXNN`, else a free byte (notes/assumptions/3). -/
def State.nextRandom (s : State) : Byte :=
  match s.randoms with
  | [] => Config.rndIn s.randomDraws
  | b :: _ => b

/-- The random byte is used up (R132: exactly one sample an execution). -/
def State.takeRandom (s : State) : State :=
  { s with randoms := s.randoms.tail, randomDraws := s.randomDraws + 1 }

/-! ### Fetch -/

/-- Can the two bytes of an instruction be fetched at `a` (R55)? -/
def fetchOk (a : Word) : Bool := decide (a.toNat ≤ 0xFFE)

/-- `Fetch16(a)` (R8, R55): big-endian. -/
def fetchWord (m : Memory) (a : Word) : Word := wordOfBytes (m.read a.toNat) (m.read (a.toNat + 1))

/-- `PC <- a + 2` (R93): from here on `PC` is npc. -/
def State.advance (s : State) : State := s.setPc (s.pc + 2)

/-! ### The end of a step -/

/-- A timer's decrement, saturating at 0 (R98). -/
def decTimer (b : Byte) : Byte := if 0 < b.toNat then b - 1 else b

/-- `Tick()` (R98). -/
def State.tick (s : State) : State := { s with dt := decTimer s.dt, st := decTimer s.st }

/-- `Render(FB)` if the screen is dirty, and `dirty <- 0` (R96, R145). -/
def State.render (s : State) : State :=
  if s.dirty then { s with renders := s.renders ++ [s.fb], dirty := false } else s

/-- The batch count: one more completed step, and after the 20th `phase` is 0 and the timers tick (R97). -/
def State.count (s : State) : State :=
  if s.phase.val + 1 = 20 then State.tick { s with phase := 0 } else { s with phase := s.phase + 1 }

/-- Parts 6 and 7 of the step, which a step that raised does not perform (R90, R173). -/
def State.endStep (s : State) : State := if s.mode.terminal then s else s.render.count

/-! ### Reset -/

/-- Memory at reset: zero-filled, then the font, then the program (R53). -/
def resetMemory (font : Vector Byte 80) (program : List Byte) : Memory :=
  Memory.writeBytes (Memory.writeBytes [] Config.fontBase font.toList) Config.progBase program

/-- Reset, in any state, with its two arguments (R195): every component at its value of R42. A program of 3584 bytes
or more is not loaded, not even partly, and the machine is `Halted(ProgramTooLarge, L)` (R177, R196). The inputs
still to come and the events already emitted belong to the surroundings and stay (notes/assumptions/7). -/
def State.applyReset (font : Vector Byte 80) (program : List Byte) (s : State) : State :=
  { State.reset with
    mem := resetMemory font (if program.length ≤ Config.progMax then program else [])
    mode := if program.length ≤ Config.progMax then .running else .halted .programTooLarge program.length
    inputs := s.inputs
    inputDraws := s.inputDraws
    randoms := s.randoms
    randomDraws := s.randomDraws
    renders := s.renders }

end Sys2Proof.Machine
end

