-- ==== Sys2Proof/Machine/Flags.lean ====
section
/-! DEFINITION. The flag computations (R22): `VF` receives 0 or 1. -/

namespace Sys2Proof.Machine

/-- 1 when the condition holds, else 0. -/
def flagByte (c : Bool) : Byte := if c then 1 else 0

/-- `VF <- 1 if c else 0` (R22). -/
def State.setFlag (s : State) (c : Bool) : State := s.setV regF (flagByte c)

/-- The carry out of the 8-bit addition: `a + b > 255` (R127). -/
def carryOut (a b : Byte) : Bool := decide (255 < a.toNat + b.toNat)

/-- The "borrow" convention: the minuend is strictly greater (R128, R130). -/
def strictlyGreater (a b : Byte) : Bool := decide (b.toNat < a.toNat)

/-- The bit a right shift loses: `a AND 1` (R129). -/
def shiftedOutRight (a : Byte) : Bool := a.getLsbD 0

/-- The bit a left shift loses: `(a >> 7) AND 1` (R131). -/
def shiftedOutLeft (a : Byte) : Bool := a.getLsbD 7

end Sys2Proof.Machine
end

