-- ==== Sys2Proof/Machine/Alu.lean ====
section
/-! DEFINITION. Load, arithmetic, logic, shift and random: `6XNN`, `7XNN`, `8XY0`..`8XYE`, `CXNN` (R119 to R134). -/

namespace Sys2Proof.Machine

/-- `6XNN` (R120): `V[X] <- NN`. -/
def execLdVxNn (x : Reg) (nn : Byte) (s : State) : Result := .next (s.setV x nn).complete

/-- `7XNN` (R121): `V[X] <- (V[X] + NN) mod 256`, no flag. -/
def execAddVxNn (x : Reg) (nn : Byte) (s : State) : Result := .next (s.setV x (s.getV x + nn)).complete

/-- `8XY0` (R122): `V[X] <- V[Y]`. -/
def execLdVxVy (x y : Reg) (s : State) : Result := .next (s.setV x (s.getV y)).complete

/-- `8XY1` (R123): `V[X] <- V[X] OR V[Y]`; `VF` is not written. -/
def execOrVxVy (x y : Reg) (s : State) : Result := .next (s.setV x (s.getV x ||| s.getV y)).complete

/-- `8XY2` (R124): `V[X] <- V[X] AND V[Y]`; `VF` is not written. -/
def execAndVxVy (x y : Reg) (s : State) : Result := .next (s.setV x (s.getV x &&& s.getV y)).complete

/-- `8XY3` (R125): `V[X] <- V[X] XOR V[Y]`; `VF` is not written. -/
def execXorVxVy (x y : Reg) (s : State) : Result := .next (s.setV x (s.getV x ^^^ s.getV y)).complete

/-- The second statement of a flag-producing instruction (R126): `V[X]` from the register file as the write of the
flag left it (`X = 15`, `Y = 15` as R133 tabulates; notes/assumptions/11). -/
def State.setResult (s : State) (x y : Reg) (f : Byte → Byte → Byte) : State := s.setV x (f (s.getV x) (s.getV y))

/-- `8XY4` (R127): `VF` the carry; then `V[X] <- (V[X] + V[Y]) mod 256`. -/
def execAddVxVy (x y : Reg) (s : State) : Result :=
  .next ((s.setFlag (carryOut (s.getV x) (s.getV y))).setResult x y (fun a b => a + b)).complete

/-- `8XY5` (R128): `VF` is 1 when `V[X] > V[Y]`; then `V[X] <- (V[X] - V[Y]) mod 256`. -/
def execSub (x y : Reg) (s : State) : Result :=
  .next ((s.setFlag (strictlyGreater (s.getV x) (s.getV y))).setResult x y (fun a b => a - b)).complete

/-- `8XY6` (R129): `VF` is bit 0; then `V[X] <- V[X] >> 1`. `Y` is not an operand (R77). -/
def execShr (x : Reg) (s : State) : Result :=
  .next ((s.setFlag (shiftedOutRight (s.getV x))).setResult x x (fun a _ => a >>> 1)).complete

/-- `8XY7` (R130): `VF` is 1 when `V[Y] > V[X]`; then `V[X] <- (V[Y] - V[X]) mod 256`. -/
def execSubn (x y : Reg) (s : State) : Result :=
  .next ((s.setFlag (strictlyGreater (s.getV y) (s.getV x))).setResult x y (fun a b => b - a)).complete

/-- `8XYE` (R131): `VF` is bit 7; then `V[X] <- (V[X] << 1) mod 256`. `Y` is not an operand (R77). -/
def execShl (x : Reg) (s : State) : Result :=
  .next ((s.setFlag (shiftedOutLeft (s.getV x))).setResult x x (fun a _ => a <<< 1)).complete

/-- `CXNN` (R132): `V[X] <- RandomByte() AND NN`, one random byte used up. -/
def execRnd (x : Reg) (nn : Byte) (s : State) : Result := .next (s.takeRandom.setV x (s.nextRandom &&& nn)).complete

end Sys2Proof.Machine
end

