-- ==== Sys2Proof/Machine/Operands.lean ====
section
/-! DEFINITION. The operand forms (R73): addresses, the bytes at `I`, keys, and the skip. -/

namespace Sys2Proof.Machine

/-- `NNN` written to a 16-bit register: the upper 4 bits are 0 (R73). -/
def addrOperand (nnn : BitVec 12) : Word := nnn.setWidth 16

/-- The effective address of byte `j` of a transfer, `I + j`, an unbounded integer (R59, R158). -/
def State.effAddr (s : State) (j : Nat) : Nat := s.i.toNat + j

/-- The sum `V[0] + NNN`, not reduced modulo 4096 (R109). -/
def State.offsetTarget (s : State) (nnn : BitVec 12) : Word := BitVec.ofNat 16 ((s.getV 0).toNat + nnn.toNat)

/-- A taken skip adds 2 to npc (R112). -/
def State.skipIf (s : State) (c : Bool) : State := s.setPc (if c then s.pc + 2 else s.pc)

/-- Is key `n` pressed in the latch (R33)? -/
def State.keyPressed (s : State) (n : Nat) : Bool := s.k.getLsbD n

/-- The least pressed key of the latch at or after `from_`, looking at `n` keys (R150). -/
def leastKeyFrom (k : BitVec 16) (from_ : Nat) : Nat → Option Nat
  | 0 => none
  | n + 1 => if k.getLsbD from_ then some from_ else leastKeyFrom k (from_ + 1) n

/-- The least `j` in `0..15` with `K[j] = 1`, if any key is pressed (R150). -/
def State.leastKey (s : State) : Option Nat := leastKeyFrom s.k 0 16

/-- The decimal digits of a byte: hundreds, tens, ones (R159). -/
def decimalDigits (b : Byte) : List Byte :=
  [BitVec.ofNat 8 (b.toNat / 100), BitVec.ofNat 8 (b.toNat / 10 % 10), BitVec.ofNat 8 (b.toNat % 10)]

/-- `V[0]`..`V[X]` as a list, lowest register first (R160). -/
def State.regsUpTo (s : State) (x : Reg) : List Byte := s.v.toList.take (x.val + 1)

/-- `V` with `V[0]`..`V[X]` loaded from the bytes at `I`, `I + 1`, ... and the registers above `V[X]` unchanged (R161). -/
def State.regsLoaded (s : State) (x : Reg) : Vector Byte 16 :=
  Vector.ofFn (fun j : Fin 16 => if j.val ≤ x.val then s.mem.read (s.effAddr j.val) else s.v[j.val])

/-- The cell of the sprite pixel in row `r`, column `c`: the flat index, reduced modulo 2048 and not otherwise (R143). -/
def spriteCell (px py : Byte) (r c : Nat) : Nat := (px.toNat + c + 64 * (py.toNat + r)) % 2048

/-- The cells of the set bits of one sprite row, leftmost first: bit 7 is column 0 (R143). -/
def rowCells (px py : Byte) (r : Nat) (row : Byte) : List Nat :=
  ((List.range 8).filter (fun c => row.getLsbD (7 - c))).map (spriteCell px py r)

/-- The cells addressed by the set bits of the sprite whose row `r` is the byte at `a + r`, in drawing order (R143). -/
def spriteCells (m : Memory) (a : Nat) (px py : Byte) (n : Nat) : List Nat :=
  (List.range n).flatMap (fun r => rowCells px py r (m.read (a + r)))

/-- One pixel of a draw: was the cell set, and the cell flipped (R143). -/
def flipCell (p : Frame × Bool) (j : Nat) : Frame × Bool := (p.1 ^^^ BitVec.twoPow 2048 j, p.2 || p.1.getLsbD j)

/-- The draw: the framebuffer and `hit` after all the cells (R143). -/
def drawCells (fb : Frame) (cells : List Nat) : Frame × Bool := cells.foldl flipCell (fb, false)

end Sys2Proof.Machine
end

