-- ==== Sys2Proof/Machine/Control.lean ====
section
/-! DEFINITION. Control transfer: `00EE`, `1NNN`, `2NNN`, `BNNN` (R105 to R109). `PC` is npc on entry. -/

namespace Sys2Proof.Machine

/-- `00EE` (R106): `StackUnderflow` when `SP = 0`; else `SP <- SP - 1`, `PC <- Stack[SP]`. An entry above 15 does not
exist (`Fault.stackIndex`; unreachable, R27). -/
def execRet (s : State) : Result :=
  if s.sp = 0 then .next (s.raise .stackUnderflow s.instrAddr.toNat)
  else match s.stack[s.sp.toNat - 1]? with
    | some target => .next ((s.setSp (s.sp - 1)).setPc target).complete
    | none => .fault .stackIndex

/-- `1NNN` (R107): `PC <- NNN`. -/
def execJp (nnn : BitVec 12) (s : State) : Result := .next (s.setPc (addrOperand nnn)).complete

/-- `2NNN` (R108): `StackOverflow` when `SP >= STACK_MAX_SP`; else `Stack[SP] <- npc`, `SP <- SP + 1`, `PC <- NNN`. -/
def execCall (nnn : BitVec 12) (s : State) : Result :=
  .next (if Config.stackMaxSp ≤ s.sp.toNat then s.raise .stackOverflow s.instrAddr.toNat
    else (((s.setStack s.sp.toNat s.pc).setSp (s.sp + 1)).setPc (addrOperand nnn)).complete)

/-- `BNNN` (R109): `PC <- V[0] + NNN`. -/
def execJpV0 (nnn : BitVec 12) (s : State) : Result := .next (s.setPc (s.offsetTarget nnn)).complete

end Sys2Proof.Machine
end

