-- ==== Sys2Proof/Machine/Display.lean ====
section
/-! DEFINITION. Display: `00E0`, `DXYN` (R142 to R145). -/

namespace Sys2Proof.Machine

/-- `00E0` (R142): every cell 0, `dirty <- 1`. -/
def execCls (s : State) : Result := .next (s.setScreen 0).complete

/-- What the draw of `DXYN` leaves: both coordinates and the sprite are read before `VF` is written (R143). -/
def State.drawn (s : State) (x y : Reg) (n : Nat) : Frame × Bool :=
  drawCells s.fb (spriteCells s.mem s.i.toNat (s.getV x) (s.getV y) n)

/-- `DXYN` (R143): the `N` bytes at `I` checked as one access; the cells flipped, `VF` the collision, `dirty <- 1`. -/
def execDrw (x y : Reg) (n : Nat) (s : State) : Result :=
  .next (s.access s.i.toNat n ((s.setScreen (s.drawn x y n).1).setFlag (s.drawn x y n).2))

end Sys2Proof.Machine
end

