-- ==== Sys2Proof/Machine/Index.lean ====
section
/-! DEFINITION. The address register: `ANNN`, `FX1E`, `FX29` (R137 to R139). -/

namespace Sys2Proof.Machine

/-- `ANNN` (R137): `I <- NNN`. -/
def execLdINnn (nnn : BitVec 12) (s : State) : Result := .next (s.setI (addrOperand nnn)).complete

/-- `FX1E` (R138): `I <- (I + V[X]) mod 65536`, no flag. -/
def execAddIVx (x : Reg) (s : State) : Result := .next (s.setI (s.i + (s.getV x).setWidth 16)).complete

/-- `FX29` (R139): `I <- 0x000 + 5 * V[X]`, all 8 bits of `V[X]`. -/
def execLdFVx (x : Reg) (s : State) : Result :=
  .next (s.setI (BitVec.ofNat 16 (Config.fontBase + 5 * (s.getV x).toNat))).complete

end Sys2Proof.Machine
end

