-- ==== Sys2Proof/Machine/Keypad.lean ====
section
/-! DEFINITION. Keypad: `EX9E`, `EXA1`, `FX0A` (R148 to R151). `PC` is npc on entry. -/

namespace Sys2Proof.Machine

/-- The check shared by the key skips (R151): a code above 15 is `KeyOutOfRange`, else the skip on `c`. -/
def State.keySkip (s : State) (code : Byte) (c : Bool) : State :=
  if 15 < code.toNat then s.raise .keyOutOfRange code.toNat else (s.skipIf c).complete

/-- `EX9E` (R148): skip if key `V[X]` is pressed. -/
def execSkp (x : Reg) (s : State) : Result := .next (s.keySkip (s.getV x) (s.keyPressed (s.getV x).toNat))

/-- `EXA1` (R149): skip if key `V[X]` is not pressed. -/
def execSknp (x : Reg) (s : State) : Result := .next (s.keySkip (s.getV x) (!s.keyPressed (s.getV x).toNat))

/-- `FX0A` (R150): with no key pressed `PC <- npc - 2` and `mode <- AwaitingKey`; else `V[X]` the least pressed key. -/
def execLdVxK (x : Reg) (s : State) : Result :=
  .next (match s.leastKey with
    | none => (s.setPc s.instrAddr).setMode .awaitingKey
    | some key => (s.setV x (BitVec.ofNat 8 key)).complete)

end Sys2Proof.Machine
end

