-- ==== Sys2Proof/Machine/Skip.lean ====
section
/-! DEFINITION. The register skips: `3XNN`, `4XNN`, `5XY0`, `9XY0` (R112 to R116). `PC` is npc on entry. -/

namespace Sys2Proof.Machine

/-- `3XNN` (R113). -/
def execSeVxNn (x : Reg) (nn : Byte) (s : State) : Result := .next (s.skipIf (s.getV x == nn)).complete

/-- `4XNN` (R114). -/
def execSneVxNn (x : Reg) (nn : Byte) (s : State) : Result := .next (s.skipIf (s.getV x != nn)).complete

/-- `5XY0` (R115). -/
def execSeVxVy (x y : Reg) (s : State) : Result := .next (s.skipIf (s.getV x == s.getV y)).complete

/-- `9XY0` (R116). -/
def execSneVxVy (x y : Reg) (s : State) : Result := .next (s.skipIf (s.getV x != s.getV y)).complete

end Sys2Proof.Machine
end

