-- ==== Sys2Proof/Machine/Timers.lean ====
section
/-! DEFINITION. Timers: `FX07`, `FX15`, `FX18` (R154 to R156). -/

namespace Sys2Proof.Machine

/-- `FX07` (R154): `V[X] <- DT`. -/
def execLdVxDt (x : Reg) (s : State) : Result := .next (s.setV x s.dt).complete

/-- `FX15` (R155): `DT <- V[X]`. -/
def execLdDtVx (x : Reg) (s : State) : Result := .next (s.setDt (s.getV x)).complete

/-- `FX18` (R156): `ST <- V[X]`. -/
def execLdStVx (x : Reg) (s : State) : Result := .next (s.setSt (s.getV x)).complete

end Sys2Proof.Machine
end

