-- ==== Sys2Proof/Machine/Transfer.lean ====
section
/-! DEFINITION. Memory transfer: `FX33`, `FX55`, `FX65` (R158 to R161). None of them changes `I`. -/

namespace Sys2Proof.Machine

/-- `FX33` (R159): the three decimal digits of `V[X]` to `I`, `I + 1`, `I + 2`. -/
def execLdBVx (x : Reg) (s : State) : Result :=
  .next (s.access s.i.toNat 3 (s.setMem (s.mem.writeBytes s.i.toNat (decimalDigits (s.getV x)))))

/-- `FX55` (R160): `V[0]`..`V[X]` to `I`..`I + X`. -/
def execLdMemVx (x : Reg) (s : State) : Result :=
  .next (s.access s.i.toNat (x.val + 1) (s.setMem (s.mem.writeBytes s.i.toNat (s.regsUpTo x))))

/-- `FX65` (R161): the bytes at `I`..`I + X` to `V[0]`..`V[X]`. -/
def execLdVxMem (x : Reg) (s : State) : Result :=
  .next (s.access s.i.toNat (x.val + 1) (s.setRegs (s.regsLoaded x)))

end Sys2Proof.Machine
end

