-- ==== Sys2Proof/Machine/Step.lean ====
section
/-! DEFINITION. One step of the engine (R90), in the order R101 fixes, and the placement of a word where the step fetches. -/

namespace Sys2Proof.Machine

/-- The end of a step around what an instruction answered (R90, parts 6 and 7). -/
def finishStep : Result → Result
  | .next t => .next t.endStep
  | .fault f => .fault f
  | .refused r => .refused r

/-- Decode and execute the fetched word in a state whose `PC` is npc (R90, parts 4 to 7); an illegal word is
`InvalidOpcode` (R94). -/
def runWord (op : Word) (s : State) : Result :=
  match decodeWord op with
  | .ok i => finishStep (exec i s)
  | .error _ => .next (s.raise .invalidOpcode op.toNat)

/-- Fetch at `PC` and run (R90, parts 3 to 7); `MemoryOutOfBounds(PC)` when the fetch cannot be made (R55). -/
def fetchAndRun (s : State) : Result :=
  if fetchOk s.pc then runWord (fetchWord s.mem s.pc) s.advance
  else .next (s.setMode (.halted .memoryOutOfBounds s.pc.toNat))

/-- The step (R90): none in a terminal mode (R91); `Stopped` when `quit_in` is seen (R176); else the key sample, the
fetch and the rest. -/
def step (s : State) : Host.Outcome State Fault Refusal :=
  if s.mode.terminal then .next s
  else if s.nextSample.quit then .next (s.setMode .stopped)
  else fetchAndRun s.takeSample

/-- `s` with the word `w` of an opcode-table row stored big-endian at `PC`, where the next step fetches. At a `PC`
the fetch cannot be made at there is no place for it, and `s` is unchanged. -/
def State.withFetchWord (s : State) (nbits w : Nat) : State :=
  if fetchOk s.pc then
    s.setMem (s.mem.writeBytes s.pc.toNat [highByte (tableOpcode nbits w), lowByte (tableOpcode nbits w)])
  else s

end Sys2Proof.Machine
end

