-- ==== Sys2Proof/Safety.lean ====
section
/-! DEFINITION. The terms the statements use: when a step runs, what each instruction may write (R41), when it raises (R171), where
it leaves `PC` (R25), and the invariant of the machine (R26, R27, R28, R36). -/

namespace Sys2Proof.Machine

/-- The next step samples the keys and fetches: the mode is not terminal and `quit_in` is 0 (R90). -/
def State.takesStep (s : State) : Bool := !s.mode.terminal && !s.nextSample.quit

/-- The opcode at `PC`, high byte first (R55). -/
def State.opcodeAtPc (s : State) : Word := s.mem.read s.pc.toNat ++ s.mem.read (s.pc.toNat + 1)

/-- The state with the key sample of the next step taken (R92). -/
def State.withSample (s : State) : State :=
  { s with k := s.nextSample.keys, inputs := s.inputs.tail, inputDraws := s.inputDraws + 1 }

/-- What every step keeps: `SP` in `0..15` (R27), `PC` at most `0x10FE` (R26), stack entries at most `0x1000` (R26),
`dirty = 0` between steps (R36). -/
abbrev State.Inv (s : State) : Prop :=
  s.sp.toNat ≤ 15 ∧ s.pc.toNat ≤ 0x10FE ∧ (∀ j : Fin 16, s.stack[j].toNat ≤ 0x1000) ∧ s.dirty = false

/-- Some set bit of the `n`-row sprite at `a`, drawn at (`px`, `py`), addresses cell `j` (R143): bit `7 - c` of row `r`. -/
def addressesCell (m : Memory) (a : Nat) (px py : Byte) (n j : Nat) : Prop :=
  ∃ r c, r < n ∧ c < 8 ∧ (m.read (a + r)).getLsbD (7 - c) = true ∧ j = (px.toNat + c + 64 * (py.toNat + r)) % 2048

end Sys2Proof.Machine

namespace Sys2Proof

/-- The `V` registers an instruction may write (R41): `VF` for the flag-producing ones (R22), the named destination,
and `V[0]`..`V[X]` for `FX65`. -/
def Instr.writesReg (r : Reg) : Instr → Bool
  | .ldVxNn x _ | .addVxNn x _ | .ldVxVy x _ | .orVxVy x _ | .andVxVy x _ | .xorVxVy x _ | .rnd x _
  | .ldVxDt x | .ldVxK x => r == x
  | .addVxVy x _ | .sub x _ | .shr x _ | .subn x _ | .shl x _ => r == x || r == 15
  | .drw _ _ _ => r == 15
  | .ldVxMem x => decide (r ≤ x)
  | .cls | .ret | .jp _ | .call _ | .seVxNn _ _ | .sneVxNn _ _ | .seVxVy _ _ | .sneVxVy _ _ | .ldINnn _ | .jpV0 _
  | .skp _ | .sknp _ | .ldDtVx _ | .ldStVx _ | .addIVx _ | .ldFVx _ | .ldBVx _ | .ldMemVx _ => false

/-- `I` is written by `ANNN`, `FX1E`, `FX29` (R23). -/
def Instr.writesI : Instr → Bool
  | .ldINnn _ | .addIVx _ | .ldFVx _ => true
  | .cls | .ret | .jp _ | .call _ | .seVxNn _ _ | .sneVxNn _ _ | .seVxVy _ _ | .ldVxNn _ _ | .addVxNn _ _
  | .ldVxVy _ _ | .orVxVy _ _ | .andVxVy _ _ | .xorVxVy _ _ | .addVxVy _ _ | .sub _ _ | .shr _ _ | .subn _ _
  | .shl _ _ | .sneVxVy _ _ | .jpV0 _ | .rnd _ _ | .drw _ _ _ | .skp _ | .sknp _ | .ldVxDt _ | .ldVxK _
  | .ldDtVx _ | .ldStVx _ | .ldBVx _ | .ldMemVx _ | .ldVxMem _ => false

/-- How many bytes, from address `I` on, an instruction stores: 3 for `FX33`, `X + 1` for `FX55` (R159, R160), none
for any other (R53). -/
def Instr.storedBytes : Instr → Nat
  | .ldBVx _ => 3
  | .ldMemVx x => x.val + 1
  | .cls | .ret | .jp _ | .call _ | .seVxNn _ _ | .sneVxNn _ _ | .seVxVy _ _ | .ldVxNn _ _ | .addVxNn _ _
  | .ldVxVy _ _ | .orVxVy _ _ | .andVxVy _ _ | .xorVxVy _ _ | .addVxVy _ _ | .sub _ _ | .shr _ _ | .subn _ _
  | .shl _ _ | .sneVxVy _ _ | .ldINnn _ | .jpV0 _ | .rnd _ _ | .drw _ _ _ | .skp _ | .sknp _ | .ldVxDt _
  | .ldVxK _ | .ldDtVx _ | .ldStVx _ | .addIVx _ | .ldFVx _ | .ldVxMem _ => 0

/-- The instructions that draw: `00E0` and `DXYN` (R36, R145). -/
def Instr.draws : Instr → Bool
  | .cls | .drw _ _ _ => true
  | .ret | .jp _ | .call _ | .seVxNn _ _ | .sneVxNn _ _ | .seVxVy _ _ | .ldVxNn _ _ | .addVxNn _ _
  | .ldVxVy _ _ | .orVxVy _ _ | .andVxVy _ _ | .xorVxVy _ _ | .addVxVy _ _ | .sub _ _ | .shr _ _ | .subn _ _
  | .shl _ _ | .sneVxVy _ _ | .ldINnn _ | .jpV0 _ | .rnd _ _ | .skp _ | .sknp _ | .ldVxDt _ | .ldVxK _
  | .ldDtVx _ | .ldStVx _ | .addIVx _ | .ldFVx _ | .ldBVx _ | .ldMemVx _ | .ldVxMem _ => false

/-- The instructions that read the key latch (R33). -/
def Instr.readsKeys : Instr → Bool
  | .skp _ | .sknp _ | .ldVxK _ => true
  | .cls | .ret | .jp _ | .call _ | .seVxNn _ _ | .sneVxNn _ _ | .seVxVy _ _ | .ldVxNn _ _ | .addVxNn _ _
  | .ldVxVy _ _ | .orVxVy _ _ | .andVxVy _ _ | .xorVxVy _ _ | .addVxVy _ _ | .sub _ _ | .shr _ _ | .subn _ _
  | .shl _ _ | .sneVxVy _ _ | .ldINnn _ | .jpV0 _ | .rnd _ _ | .drw _ _ _ | .ldVxDt _ | .ldDtVx _ | .ldStVx _
  | .addIVx _ | .ldFVx _ | .ldBVx _ | .ldMemVx _ | .ldVxMem _ => false

end Sys2Proof

namespace Sys2Proof.Machine

/-- An access of `n` bytes at `I` raises, as R171 tabulates it. -/
def dataRaise (s : State) (n : Nat) : Option (Cause × Nat) :=
  if 0 < n ∧ 0xFFF < s.i.toNat + n - 1 then some (.memoryOutOfBounds, max s.i.toNat 0x1000) else none

/-- The fatal error an instruction raises in a state whose `PC` is npc, if any: the cause and the recorded value
(R171). The 26 other instructions never raise. -/
def raisesAs (s : State) : Instr → Option (Cause × Nat)
  | .ret => if s.sp = 0 then some (.stackUnderflow, (s.pc - 2).toNat) else none
  | .call _ => if 15 ≤ s.sp.toNat then some (.stackOverflow, (s.pc - 2).toNat) else none
  | .skp x | .sknp x => if 15 < s.v[x].toNat then some (.keyOutOfRange, s.v[x].toNat) else none
  | .drw _ _ n => dataRaise s n
  | .ldBVx _ => dataRaise s 3
  | .ldMemVx x | .ldVxMem x => dataRaise s (x.val + 1)
  | .cls | .jp _ | .seVxNn _ _ | .sneVxNn _ _ | .seVxVy _ _ | .ldVxNn _ _ | .addVxNn _ _ | .ldVxVy _ _
  | .orVxVy _ _ | .andVxVy _ _ | .xorVxVy _ _ | .addVxVy _ _ | .sub _ _ | .shr _ _ | .subn _ _ | .shl _ _
  | .sneVxVy _ _ | .ldINnn _ | .jpV0 _ | .rnd _ _ | .ldVxDt _ | .ldVxK _ | .ldDtVx _ | .ldStVx _ | .addIVx _
  | .ldFVx _ => none

/-- `PC` after a completed step whose instruction was fetched from `a` (R25), with the registers, stack and key sample
the instruction finds in `s`. -/
def pcAfter (a : Nat) (s : State) : Instr → Nat
  | .seVxNn x nn => if s.v[x] = nn then a + 4 else a + 2
  | .sneVxNn x nn => if s.v[x] = nn then a + 2 else a + 4
  | .seVxVy x y => if s.v[x] = s.v[y] then a + 4 else a + 2
  | .sneVxVy x y => if s.v[x] = s.v[y] then a + 2 else a + 4
  | .skp x => if s.k.getLsbD s.v[x].toNat then a + 4 else a + 2
  | .sknp x => if s.k.getLsbD s.v[x].toNat then a + 2 else a + 4
  | .jp nnn | .call nnn => nnn.toNat
  | .ret => ((s.stack[s.sp.toNat - 1]?).getD 0).toNat
  | .jpV0 nnn => s.v[0].toNat + nnn.toNat
  | .ldVxK _ => if s.k = 0 then a else a + 2
  | .cls | .ldVxNn _ _ | .addVxNn _ _ | .ldVxVy _ _ | .orVxVy _ _ | .andVxVy _ _ | .xorVxVy _ _ | .addVxVy _ _
  | .sub _ _ | .shr _ _ | .subn _ _ | .shl _ _ | .ldINnn _ | .rnd _ _ | .drw _ _ _ | .ldVxDt _ | .ldDtVx _
  | .ldStVx _ | .addIVx _ | .ldFVx _ | .ldBVx _ | .ldMemVx _ | .ldVxMem _ => a + 2

end Sys2Proof.Machine
end

