-- ==== Sys2Proof/Certificates/Slice0/Obligations.lean ====
section
/-! DEFINITION. The statements for the provers. Each docstring names the rules of spec/ it formalises, and the spec's own
decisions (92_eei_decisions.md) and derivations it rests on. Statements about `exec` hold for every state on entry, where
`PC` is npc, the instruction's address plus 2 (R93); `exec`'s answer is written out whole wherever it can be, so that a
result is its own completion and frame. -/

open Sys2Proof Sys2Proof.Machine

/-! ### Encoding -/

/-- R71, R75, R76: words written out from the map decode to their instructions, and `0x0000` does not decode. -/
def Obligations.SampleWordsDecode : Prop :=
  decodeWord 0x00E0 = .ok .cls ∧ decodeWord 0x2ABC = .ok (.call 0xABC) ∧
  decodeWord 0x332A = .ok (.seVxNn 3 0x2A) ∧ decodeWord 0x9AB0 = .ok (.sneVxVy 0xA 0xB) ∧
  decodeWord 0x8125 = .ok (.sub 1 2) ∧ decodeWord 0xA2F0 = .ok (.ldINnn 0x2F0) ∧
  decodeWord 0xD125 = .ok (.drw 1 2 5) ∧ decodeWord 0xE5A1 = .ok (.sknp 5) ∧
  decodeWord 0xF20A = .ok (.ldVxK 2) ∧ decodeWord 0xF255 = .ok (.ldMemVx 2) ∧
  decodeWord 0x0000 = .error (.invalidOpcode 0x0000)

/-- R81: encoding is the inverse of decoding, for every well-formed instruction, as a word and as bytes in memory
order. Rests on the spec's own derivation in R81. -/
def Obligations.EncodeThenDecode : Prop :=
  ∀ (i : Instr) (rest : List Byte), i.wellFormed = true →
    decodeWord (encode i) = .ok i ∧ decode (encodeBytes i ++ rest) = .ok (i, rest)

/-- R74, R77, R81: a decoded instruction is well-formed and encodes to the word it was read from, so every legal word
has one meaning and no bit of it is dropped (`Y` of the shifts is kept as an operand). Rests on the spec's own
decision D12 and its derivation in R81. -/
def Obligations.DecodeThenEncode : Prop :=
  ∀ (op : Word) (i : Instr), decodeWord op = .ok i → i.wellFormed = true ∧ encode i = op

/-- R76: the illegal words, family by family. Rests on the spec's own decision D12. -/
def Obligations.IllegalWordsExactly : Prop :=
  ∀ op : Word, decodeWord op = .error (.invalidOpcode op) ↔
    (op.toNat / 4096 = 0 ∧ op.toNat ≠ 0x00E0 ∧ op.toNat ≠ 0x00EE) ∨
    (op.toNat / 4096 = 5 ∧ op.toNat % 16 ≠ 0) ∨
    (op.toNat / 4096 = 8 ∧ op.toNat % 16 ∈ [0x8, 0x9, 0xA, 0xB, 0xC, 0xD, 0xF]) ∨
    (op.toNat / 4096 = 9 ∧ op.toNat % 16 ≠ 0) ∨
    (op.toNat / 4096 = 0xE ∧ op.toNat % 256 ∉ [0x9E, 0xA1]) ∨
    (op.toNat / 4096 = 0xF ∧ op.toNat % 256 ∉ [0x07, 0x0A, 0x15, 0x18, 0x1E, 0x29, 0x33, 0x55, 0x65])

/-! ### The step -/

/-- R90, R93, R94: when the bytes at `PC` decode to `i`, the step is `exec i` in the state with the key sample taken
and `PC` at npc, and then the end of the step. Rests on the spec's own decision D1. -/
def Obligations.StepRunsDecodedInstruction : Prop :=
  ∀ (s : State) (i : Instr), s.takesStep = true → s.pc.toNat ≤ 0xFFE → decodeWord s.opcodeAtPc = .ok i →
    step s = (match exec i { s.withSample with pc := s.pc + 2 } with
      | .next t => .next t.endStep
      | .fault f => .fault f
      | .refused r => .refused r)

/-- R94, R173: when the word at `PC` is no instruction, the step halts with `InvalidOpcode` and the word, `PC`
unchanged. Rests on the spec's own decisions D10 and D12. -/
def Obligations.IllegalWordHalts : Prop :=
  ∀ (s : State) (e : DecodeError), s.takesStep = true → s.pc.toNat ≤ 0xFFE → decodeWord s.opcodeAtPc = .error e →
    step s = .next { s.withSample with mode := .halted .invalidOpcode s.opcodeAtPc.toNat }

/-- R55, R173: with `PC` above `0xFFE` nothing is fetched and the step halts with `MemoryOutOfBounds(PC)`. Rests on
the spec's own decisions D6 and D10. -/
def Obligations.FetchBeyondMemoryHalts : Prop :=
  ∀ s : State, s.takesStep = true → 0xFFE < s.pc.toNat →
    step s = .next { s.withSample with mode := .halted .memoryOutOfBounds s.pc.toNat }

/-- R91: in `Halted` and `Stopped` a step changes nothing. Rests on the spec's own decision D28. -/
def Obligations.TerminalModesFrozen : Prop :=
  ∀ s : State, (s.mode = .stopped ∨ ∃ c n, s.mode = .halted c n) → step s = .next s

/-- R176: a step that sees `quit_in` sets `mode <- Stopped` and does nothing else. Rests on the spec's own decision
D3. -/
def Obligations.QuitStops : Prop :=
  ∀ s : State, (s.mode = .running ∨ s.mode = .awaitingKey) → s.nextSample.quit = true →
    step s = .next { s with mode := .stopped }

/-- R96, R97, R98: what the end of a completed step does: one render if dirty, one count, and after the 20th step a
tick of both timers, saturating at 0; after a raise it does nothing (R173). Rests on the spec's own decision D5. -/
def Obligations.EndOfStep : Prop :=
  ∀ t : State,
    (t.mode.terminal = true → t.endStep = t) ∧
    (t.mode.terminal = false → t.endStep =
      { t with
        renders := if t.dirty = true then t.renders ++ [t.fb] else t.renders
        dirty := false
        phase := if t.phase = 19 then 0 else t.phase + 1
        dt := if t.phase = 19 then BitVec.ofNat 8 (t.dt.toNat - 1) else t.dt
        st := if t.phase = 19 then BitVec.ofNat 8 (t.st.toNat - 1) else t.st })

/-- R97, R98, R157: after `m` counted steps that load no timer, `phase` has gone round `(phase + m) / 20` times and
each timer has lost one for every round, down to 0. Rests on the spec's own decision D5 and its derivation in R157. -/
def Obligations.TimersCountBatches : Prop :=
  ∀ (m : Nat) (s : State),
    ((State.count^[m] s).phase.val = (s.phase.val + m) % 20) ∧
    ((State.count^[m] s).dt.toNat = s.dt.toNat - (s.phase.val + m) / 20) ∧
    ((State.count^[m] s).st.toNat = s.st.toNat - (s.phase.val + m) / 20)

/-- R173: a fatal error is precise: a step that ends in `Halted` leaves every component as it was when the step
began, but for the key sample it took and the mode. Rests on the spec's own decision D10. -/
def Obligations.HaltIsPrecise : Prop :=
  ∀ (s t : State) (c : Cause) (n : Nat), s.mode.terminal = false → step s = .next t → t.mode = .halted c n →
    t = { s.withSample with mode := .halted c n }

/-- R171, R174: which instructions raise, when, with which cause and value; no other instruction raises. Rests on the
spec's own decisions D7, D8, D9, D11 and D18. -/
def Obligations.RaisesExactlyAsTabulated : Prop :=
  ∀ (i : Instr) (s t : State) (c : Cause) (n : Nat), exec i s = .next t →
    (t.mode = .halted c n ↔ raisesAs s i = some (c, n))

/-- R91, R100: the machine always has a next state: no step faults or refuses while `SP <= 16`. -/
def Obligations.StepAlwaysAnswers : Prop :=
  ∀ s : State, s.sp.toNat ≤ 16 → ∃ t, step s = .next t

/-- R26, R27, R36: every step keeps `SP` in `0..15`, `PC` at most `0x10FE`, stack entries at most `0x1000`, and
`dirty = 0` between steps. Rests on the spec's own decisions D8 and D27 and its derivations in R26 and R36. -/
def Obligations.StepKeepsRanges : Prop :=
  ∀ s t : State, s.Inv → step s = .next t → t.Inv

/-- R26, R27, R36, R42: the state after reset is in those ranges, with any font and program, in any state. Rests on
the spec's own decisions D8 and D19. -/
def Obligations.ResetIsInRange : Prop :=
  State.reset.Inv ∧ ∀ (font : Vector Byte 80) (program : List Byte) (s : State), (s.applyReset font program).Inv

/-- R50, R54, R58: every step keeps memory in its canonical form, in particular no byte outside `0x000`..`0xFFF` is
ever written. Rests on the spec's own decisions D6 and D7. -/
def Obligations.StepKeepsMemoryCanonical : Prop :=
  ∀ s t : State, s.mem.wf = true → step s = .next t → t.mem.wf = true

/-- R50, R53: memory after reset is in its canonical form, with any font and program, in any state. -/
def Obligations.ResetMemoryIsCanonical : Prop :=
  ∀ (font : Vector Byte 80) (program : List Byte) (s : State), (s.applyReset font program).mem.wf = true

/-! ### Reset -/

/-- R42, R195: every component but memory (`ResetMemoryImage`) after reset with an accepted program, whatever the state
before; the status of a program of 3584 bytes or more is `Halted(ProgramTooLarge, L)` (R196), with the same components.
Rests on the spec's own decisions D19 and D29. That `L` is recorded whole, 65536 and above included, is the model's
choice (log entry 16): decision D11 makes the recorded value 16 bits. -/
def Obligations.ResetComponents : Prop :=
  ∀ (font : Vector Byte 80) (program : List Byte) (s r : State), r = s.applyReset font program →
    (∀ x : Reg, r.v[x] = 0) ∧ r.i = 0 ∧ r.pc = 0x200 ∧ r.sp = 0 ∧ (∀ j : Fin 16, r.stack[j] = 0) ∧
    (∀ j, j < 2048 → r.fb.getLsbD j = false) ∧ r.dt = 0 ∧ r.st = 0 ∧ r.k = 0 ∧ r.dirty = false ∧
    r.phase = 0 ∧
    (program.length < 3584 → r.mode = .running) ∧
    (3584 ≤ program.length → r.mode = .halted .programTooLarge program.length) ∧
    r.renders = s.renders

/-- R53, R196: the reset image of memory: the font, the program (not loaded, not even partly, when it is too long),
zero elsewhere. Rests on the spec's own decision D29. -/
def Obligations.ResetMemoryImage : Prop :=
  ∀ (font : Vector Byte 80) (program : List Byte) (s : State) (a : Nat),
    (s.applyReset font program).mem.read a =
      if h : a < 80 then font[a]
      else if 0x200 ≤ a ∧ program.length < 3584 then (program[a - 0x200]?).getD 0
      else 0

/-! ### Control transfer -/

/-- R107: `1NNN`. -/
def Obligations.JumpSetsPc : Prop :=
  ∀ (nnn : BitVec 12) (s : State),
    (encode (.jp nnn)).toNat = 0x1000 + nnn.toNat ∧
    exec (.jp nnn) s = .next { s with pc := BitVec.ofNat 16 nnn.toNat, mode := .running }

/-- R108: `2NNN`: the push of npc for `SP` in `0..14`, `StackOverflow` otherwise. Rests on the spec's own decisions
D8 and D10. -/
def Obligations.CallPushesOrOverflows : Prop :=
  ∀ (nnn : BitVec 12) (s : State),
    (encode (.call nnn)).toNat = 0x2000 + nnn.toNat ∧
    (∀ j : Fin 15, s.sp.toNat = j.val → exec (.call nnn) s = .next { s with
      stack := s.stack.set j.val s.pc
      sp := BitVec.ofNat 8 (j.val + 1)
      pc := BitVec.ofNat 16 nnn.toNat
      mode := .running }) ∧
    (15 ≤ s.sp.toNat → exec (.call nnn) s = .next { s with
      pc := s.pc - 2
      mode := .halted .stackOverflow (s.pc - 2).toNat })

/-- R106: `00EE`: the pop, which clears nothing, and `StackUnderflow` when `SP = 0`. Rests on the spec's own
decisions D9 and D10. -/
def Obligations.ReturnPopsOrUnderflows : Prop :=
  ∀ s : State,
    (encode .ret).toNat = 0x00EE ∧
    (∀ j : Fin 16, s.sp.toNat = j.val + 1 → exec .ret s = .next { s with
      sp := BitVec.ofNat 8 j.val
      pc := s.stack[j]
      mode := .running }) ∧
    (s.sp = 0 → exec .ret s = .next { s with
      pc := s.pc - 2
      mode := .halted .stackUnderflow (s.pc - 2).toNat })

/-- R8, R28: an entry of the stack above 15 does not exist: `00EE` with `SP > 16` (a state no run reaches, R27) stops
by name. The model's choice for those states (log entry 10). -/
def Obligations.ReturnFaultsBeyondTheStack : Prop :=
  ∀ s : State, 16 < s.sp.toNat → exec .ret s = .fault .stackIndex

/-- R109: `BNNN`: the sum is not reduced. -/
def Obligations.OffsetJumpIsNotReduced : Prop :=
  ∀ (nnn : BitVec 12) (s : State),
    (encode (.jpV0 nnn)).toNat = 0xB000 + nnn.toNat ∧
    ∃ target : Word, target.toNat = s.v[0].toNat + nnn.toNat ∧
      exec (.jpV0 nnn) s = .next { s with pc := target, mode := .running }

/-- R106, R108: a return executed on the stack a call left goes to the address after the call, with `SP` as before
the call and the entries below it untouched. Rests on the spec's own decision D8. -/
def Obligations.CallThenReturn : Prop :=
  ∀ (nnn : BitVec 12) (s : State), s.sp.toNat < 15 →
    ∃ t, exec (.call nnn) s = .next t ∧
      ∀ u : State, u.sp = t.sp → u.stack = t.stack →
        ∃ r, exec .ret u = .next r ∧ r.pc = s.pc ∧ r.sp = s.sp ∧
          ∀ j : Fin 16, j.val < s.sp.toNat → r.stack[j] = s.stack[j]

/-! ### Skips -/

/-- R112, R113, R114: `3XNN`, `4XNN`. -/
def Obligations.ByteSkips : Prop :=
  ∀ (x : Reg) (nn : Byte) (s : State),
    (encode (.seVxNn x nn)).toNat = 0x3000 + 256 * x.val + nn.toNat ∧
    (encode (.sneVxNn x nn)).toNat = 0x4000 + 256 * x.val + nn.toNat ∧
    exec (.seVxNn x nn) s = .next { s with pc := if s.v[x] = nn then s.pc + 2 else s.pc, mode := .running } ∧
    exec (.sneVxNn x nn) s = .next { s with pc := if s.v[x] ≠ nn then s.pc + 2 else s.pc, mode := .running }

/-- R112, R115, R116: `5XY0`, `9XY0`. -/
def Obligations.RegisterSkips : Prop :=
  ∀ (x y : Reg) (s : State),
    (encode (.seVxVy x y)).toNat = 0x5000 + 256 * x.val + 16 * y.val ∧
    (encode (.sneVxVy x y)).toNat = 0x9000 + 256 * x.val + 16 * y.val ∧
    exec (.seVxVy x y) s = .next { s with pc := if s.v[x] = s.v[y] then s.pc + 2 else s.pc, mode := .running } ∧
    exec (.sneVxVy x y) s = .next { s with pc := if s.v[x] ≠ s.v[y] then s.pc + 2 else s.pc, mode := .running }

/-! ### Register load, arithmetic, logic, shift, random -/

/-- R120, R121: `6XNN`, `7XNN`: no flag, `X = 15` included. -/
def Obligations.LoadAndAddByte : Prop :=
  ∀ (x : Reg) (nn : Byte) (s : State),
    (encode (.ldVxNn x nn)).toNat = 0x6000 + 256 * x.val + nn.toNat ∧
    (encode (.addVxNn x nn)).toNat = 0x7000 + 256 * x.val + nn.toNat ∧
    exec (.ldVxNn x nn) s = .next { s with v := s.v.set x nn, mode := .running } ∧
    exec (.addVxNn x nn) s = .next { s with
      v := s.v.set x (BitVec.ofNat 8 ((s.v[x].toNat + nn.toNat) % 256))
      mode := .running }

/-- R122 to R125: `8XY0`, `8XY1`, `8XY2`, `8XY3`: no flag. -/
def Obligations.CopyAndLogic : Prop :=
  ∀ (x y : Reg) (s : State),
    (encode (.ldVxVy x y)).toNat = 0x8000 + 256 * x.val + 16 * y.val ∧
    (encode (.orVxVy x y)).toNat = 0x8001 + 256 * x.val + 16 * y.val ∧
    (encode (.andVxVy x y)).toNat = 0x8002 + 256 * x.val + 16 * y.val ∧
    (encode (.xorVxVy x y)).toNat = 0x8003 + 256 * x.val + 16 * y.val ∧
    exec (.ldVxVy x y) s = .next { s with v := s.v.set x s.v[y], mode := .running } ∧
    exec (.orVxVy x y) s = .next { s with v := s.v.set x (s.v[x] ||| s.v[y]), mode := .running } ∧
    exec (.andVxVy x y) s = .next { s with v := s.v.set x (s.v[x] &&& s.v[y]), mode := .running } ∧
    exec (.xorVxVy x y) s = .next { s with v := s.v.set x (s.v[x] ^^^ s.v[y]), mode := .running }

/-- R126, R127: `8XY4`: the flag, then the sum of the registers as the write of the flag left them (`X = 15` and `Y =
15` included); with `X` and `Y` other than 15 both are computed from the old values. Rests on the spec's own decision
D13. -/
def Obligations.AddWithCarry : Prop :=
  ∀ (x y : Reg) (s : State) (w : Vector Byte 16),
    w = s.v.set 15 (if 255 < s.v[x].toNat + s.v[y].toNat then 1 else 0) →
    (encode (.addVxVy x y)).toNat = 0x8004 + 256 * x.val + 16 * y.val ∧
    exec (.addVxVy x y) s = .next { s with
      v := w.set x (BitVec.ofNat 8 ((w[x].toNat + w[y].toNat) % 256))
      mode := .running } ∧
    (x ≠ 15 → w[x] = s.v[x]) ∧ (y ≠ 15 → w[y] = s.v[y])

/-- R126, R128, R130: `8XY5`, `8XY7`: the strict comparison, then the difference mod 256 of the registers as the
write of the flag left them; with `X` and `Y` other than 15 both are computed from the old values. Rests on the
spec's own decision D13. -/
def Obligations.Subtractions : Prop :=
  ∀ (x y : Reg) (s : State) (w u : Vector Byte 16),
    w = s.v.set 15 (if s.v[y].toNat < s.v[x].toNat then 1 else 0) →
    u = s.v.set 15 (if s.v[x].toNat < s.v[y].toNat then 1 else 0) →
    (encode (.sub x y)).toNat = 0x8005 + 256 * x.val + 16 * y.val ∧
    (encode (.subn x y)).toNat = 0x8007 + 256 * x.val + 16 * y.val ∧
    exec (.sub x y) s = .next { s with
      v := w.set x (BitVec.ofNat 8 ((256 + w[x].toNat - w[y].toNat) % 256))
      mode := .running } ∧
    exec (.subn x y) s = .next { s with
      v := u.set x (BitVec.ofNat 8 ((256 + u[y].toNat - u[x].toNat) % 256))
      mode := .running } ∧
    (x ≠ 15 → w[x] = s.v[x] ∧ u[x] = s.v[x]) ∧ (y ≠ 15 → w[y] = s.v[y] ∧ u[y] = s.v[y])

/-- R126, R129, R131, R77: `8XY6`, `8XYE`, any `Y`, which is ignored: the bit shifted out, then the shift of the
register as the write of the flag left it; with `X` other than 15 both are computed from the old value. Rests on the
spec's own decision D13. -/
def Obligations.Shifts : Prop :=
  ∀ (x y : Reg) (s : State) (w u : Vector Byte 16),
    w = s.v.set 15 (BitVec.ofNat 8 (s.v[x].toNat % 2)) → u = s.v.set 15 (BitVec.ofNat 8 (s.v[x].toNat / 128)) →
    (encode (.shr x y)).toNat = 0x8006 + 256 * x.val + 16 * y.val ∧
    (encode (.shl x y)).toNat = 0x800E + 256 * x.val + 16 * y.val ∧
    exec (.shr x y) s = .next { s with
      v := w.set x (BitVec.ofNat 8 (w[x].toNat / 2))
      mode := .running } ∧
    exec (.shl x y) s = .next { s with
      v := u.set x (BitVec.ofNat 8 (2 * u[x].toNat % 256))
      mode := .running } ∧
    (x ≠ 15 → w[x] = s.v[x] ∧ u[x] = s.v[x])

/-- R133 (log entry 11): the flag-producing instructions with the flag register as an operand, column by column of
the table: first `X != 15, Y = 15`, then `X = 15, Y != 15`, then both. `Y` is ignored by the shifts. Rests on the
spec's own decision D13. -/
def Obligations.FlagRegisterAsOperand : Prop :=
  ∀ (r : Reg) (s : State), r ≠ 15 →
    ∀ a f : Nat, a = s.v[r].toNat → f = s.v[15].toNat →
    let one (c : Prop) [Decidable c] : Nat := if c then 1 else 0
    let pair (flag result : Nat) : Host.Outcome State Fault Refusal := .next { s with
      v := (s.v.set 15 (BitVec.ofNat 8 flag)).set r (BitVec.ofNat 8 (result % 256)), mode := .running }
    let only (result : Nat) : Host.Outcome State Fault Refusal := .next { s with
      v := s.v.set 15 (BitVec.ofNat 8 (result % 256)), mode := .running }
    exec (.addVxVy r 15) s = pair (one (255 < a + f)) (a + one (255 < a + f)) ∧
    exec (.sub r 15) s = pair (one (f < a)) (256 + a - one (f < a)) ∧
    exec (.subn r 15) s = pair (one (a < f)) (256 + one (a < f) - a) ∧
    exec (.addVxVy 15 r) s = only (one (255 < f + a) + a) ∧
    exec (.sub 15 r) s = only (256 + one (a < f) - a) ∧
    exec (.subn 15 r) s = only (256 + a - one (f < a)) ∧
    exec (.addVxVy 15 15) s = only (2 * one (255 < 2 * f)) ∧
    exec (.sub 15 15) s = only 0 ∧
    exec (.subn 15 15) s = only 0 ∧
    (∀ y : Reg, exec (.shr 15 y) s = only 0) ∧
    (∀ y : Reg, exec (.shl 15 y) s = only (2 * (f / 128)))

/-- R132, R35: `CXNN`: the byte scheduled on `rnd_in`, and with none scheduled some byte (the free value of log entry
3), under the mask; exactly one sample used up. Rests on the spec's own decision D4. -/
def Obligations.RandomUnderMask : Prop :=
  ∀ (x : Reg) (nn : Byte) (s : State),
    (encode (.rnd x nn)).toNat = 0xC000 + 256 * x.val + nn.toNat ∧
    (∀ (b : Byte) (rest : List Byte), s.randoms = b :: rest → exec (.rnd x nn) s = .next { s with
      v := s.v.set x (b &&& nn), randoms := rest, randomDraws := s.randomDraws + 1, mode := .running }) ∧
    (s.randoms = [] → ∃ b : Byte, exec (.rnd x nn) s = .next { s with
      v := s.v.set x (b &&& nn), randomDraws := s.randomDraws + 1, mode := .running })

/-! ### The address register and the timers -/

/-- R137, R138, R139: `ANNN`, `FX1E`, `FX29`. Rests on the spec's own decision D21. -/
def Obligations.AddressRegister : Prop :=
  ∀ (x : Reg) (nnn : BitVec 12) (s : State),
    (encode (.ldINnn nnn)).toNat = 0xA000 + nnn.toNat ∧
    (encode (.addIVx x)).toNat = 0xF01E + 256 * x.val ∧
    (encode (.ldFVx x)).toNat = 0xF029 + 256 * x.val ∧
    exec (.ldINnn nnn) s = .next { s with i := BitVec.ofNat 16 nnn.toNat, mode := .running } ∧
    exec (.addIVx x) s = .next { s with
      i := BitVec.ofNat 16 ((s.i.toNat + s.v[x].toNat) % 65536), mode := .running } ∧
    exec (.ldFVx x) s = .next { s with i := BitVec.ofNat 16 (5 * s.v[x].toNat), mode := .running }

/-- R154, R155, R156: `FX07`, `FX15`, `FX18`. -/
def Obligations.TimerTransfers : Prop :=
  ∀ (x : Reg) (s : State),
    (encode (.ldVxDt x)).toNat = 0xF007 + 256 * x.val ∧
    (encode (.ldDtVx x)).toNat = 0xF015 + 256 * x.val ∧
    (encode (.ldStVx x)).toNat = 0xF018 + 256 * x.val ∧
    exec (.ldVxDt x) s = .next { s with v := s.v.set x s.dt, mode := .running } ∧
    exec (.ldDtVx x) s = .next { s with dt := s.v[x], mode := .running } ∧
    exec (.ldStVx x) s = .next { s with st := s.v[x], mode := .running }

/-! ### Display -/

/-- R142: `00E0`. -/
def Obligations.ClearScreen : Prop :=
  ∀ s : State, (encode .cls).toNat = 0x00E0 ∧
    ∃ fb : Frame, (∀ j, j < 2048 → fb.getLsbD j = false) ∧
      exec .cls s = .next { s with fb := fb, dirty := true, mode := .running }

/-- R143, R144: `DXYN` with the sprite inside memory (or no rows, whatever `I` holds): exactly the cells addressed by
a set bit flip, `VF` is 1 when one of them was set, the screen is dirty. Registers 15 as coordinates included. Rests
on the spec's own decisions D7 and D14 to D17. -/
def Obligations.DrawSprite : Prop :=
  ∀ (x y : Reg) (n : Nat) (s : State), n < 16 → (n = 0 ∨ s.i.toNat + n - 1 ≤ 0xFFF) →
    (encode (.drw x y n)).toNat = 0xD000 + 256 * x.val + 16 * y.val + n ∧
    ∃ (fb : Frame) (hit : Bool),
      exec (.drw x y n) s = .next { s with
        fb := fb
        v := s.v.set 15 (if hit = true then 1 else 0)
        dirty := true
        mode := .running } ∧
      (∀ j, j < 2048 → (fb.getLsbD j ≠ s.fb.getLsbD j ↔ addressesCell s.mem s.i.toNat s.v[x] s.v[y] n j)) ∧
      (hit = true ↔ ∃ j, s.fb.getLsbD j = true ∧ addressesCell s.mem s.i.toNat s.v[x] s.v[y] n j)

/-- R54, R143: `DXYN` with a row above `0xFFF`: `MemoryOutOfBounds`, and nothing is drawn. Rests on the spec's own
decisions D7 and D10. -/
def Obligations.DrawOutOfBounds : Prop :=
  ∀ (x y : Reg) (n : Nat) (s : State), 0 < n → 0xFFF < s.i.toNat + n - 1 →
    exec (.drw x y n) s = .next { s with
      pc := s.pc - 2
      mode := .halted .memoryOutOfBounds (max s.i.toNat 0x1000) }

/-- R144 (b): two identical draws in a row, with the same coordinates, `I` and memory, leave the framebuffer as it
was, and the second reports a collision when the first set every cell it addressed and addressed one. Rests on the
spec's own derivation in R144. -/
def Obligations.DrawTwiceRestores : Prop :=
  ∀ (x y : Reg) (n : Nat) (s t u w : State), n < 16 → (n = 0 ∨ s.i.toNat + n - 1 ≤ 0xFFF) →
    exec (.drw x y n) s = .next t →
    u.fb = t.fb → u.mem = s.mem → u.i = s.i → u.v[x] = s.v[x] → u.v[y] = s.v[y] →
    exec (.drw x y n) u = .next w →
    w.fb = s.fb ∧
    ((∃ j, addressesCell s.mem s.i.toNat s.v[x] s.v[y] n j) → t.v[15] = 0 → w.v[15] = 1)

/-- R39, R145: a step emits exactly one `Render`, of the framebuffer as it stands at the end of the step, when it
completes `00E0` or `DXYN`, and none otherwise. Rests on the spec's own decision D26. -/
def Obligations.OneRenderPerDraw : Prop :=
  ∀ s t : State, s.dirty = false → step s = .next t →
    (∀ i : Instr, s.takesStep = true → s.pc.toNat ≤ 0xFFE → decodeWord s.opcodeAtPc = .ok i → i.draws = true →
      t.mode.terminal = false → t.renders = s.renders ++ [t.fb]) ∧
    ((s.takesStep = false ∨ 0xFFE < s.pc.toNat ∨ t.mode.terminal = true ∨
      ∀ i : Instr, decodeWord s.opcodeAtPc = .ok i → i.draws = false) → t.renders = s.renders)

/-! ### Keypad -/

/-- R148, R149, R151: `EX9E`, `EXA1`: the skip on the key's bit of the latch, and `KeyOutOfRange` for a code above
15. Rests on the spec's own decisions D10 and D18. -/
def Obligations.KeySkips : Prop :=
  ∀ (x : Reg) (s : State),
    (encode (.skp x)).toNat = 0xE09E + 256 * x.val ∧
    (encode (.sknp x)).toNat = 0xE0A1 + 256 * x.val ∧
    (s.v[x].toNat ≤ 15 →
      exec (.skp x) s = .next { s with
        pc := if s.k.getLsbD s.v[x].toNat = true then s.pc + 2 else s.pc, mode := .running } ∧
      exec (.sknp x) s = .next { s with
        pc := if s.k.getLsbD s.v[x].toNat = true then s.pc else s.pc + 2, mode := .running }) ∧
    (15 < s.v[x].toNat →
      exec (.skp x) s = .next { s with pc := s.pc - 2, mode := .halted .keyOutOfRange s.v[x].toNat } ∧
      exec (.sknp x) s = .next { s with pc := s.pc - 2, mode := .halted .keyOutOfRange s.v[x].toNat })

/-- R150: `FX0A`: with no key pressed the instruction is fetched again and the mode is `AwaitingKey`; else `V[X]` is
the least pressed key. Rests on the spec's own decision D22. -/
def Obligations.WaitForKey : Prop :=
  ∀ (x : Reg) (s : State),
    (encode (.ldVxK x)).toNat = 0xF00A + 256 * x.val ∧
    (s.k = 0 → exec (.ldVxK x) s = .next { s with pc := s.pc - 2, mode := .awaitingKey }) ∧
    (∀ key : Fin 16, s.k.getLsbD key.val = true → (∀ l, l < key.val → s.k.getLsbD l = false) →
      exec (.ldVxK x) s = .next { s with v := s.v.set x (BitVec.ofNat 8 key.val), mode := .running })

/-! ### Memory transfer -/

/-- R159: `FX33`: the three digits at `I`, `I + 1`, `I + 2`, every other byte unchanged; `MemoryOutOfBounds` when `I
+ 2 > 0xFFF`, with no byte written. Rests on the spec's own decisions D7, D10 and D21. -/
def Obligations.StoreDigits : Prop :=
  ∀ (x : Reg) (s : State),
    (encode (.ldBVx x)).toNat = 0xF033 + 256 * x.val ∧
    (s.i.toNat + 2 ≤ 0xFFF → ∃ m : Memory, exec (.ldBVx x) s = .next { s with mem := m, mode := .running } ∧
      (m.read s.i.toNat).toNat = s.v[x].toNat / 100 ∧
      (m.read (s.i.toNat + 1)).toNat = s.v[x].toNat / 10 % 10 ∧
      (m.read (s.i.toNat + 2)).toNat = s.v[x].toNat % 10 ∧
      ∀ a, (a < s.i.toNat ∨ s.i.toNat + 2 < a) → m.read a = s.mem.read a) ∧
    (0xFFF < s.i.toNat + 2 → exec (.ldBVx x) s = .next { s with
      pc := s.pc - 2
      mode := .halted .memoryOutOfBounds (max s.i.toNat 0x1000) })

/-- R160: `FX55`: `V[0]`..`V[X]` at `I`..`I + X`, every other byte unchanged; `MemoryOutOfBounds` when `I + X >
0xFFF`, with no byte written. Rests on the spec's own decisions D7, D10 and D21. -/
def Obligations.StoreRegisters : Prop :=
  ∀ (x : Reg) (s : State),
    (encode (.ldMemVx x)).toNat = 0xF055 + 256 * x.val ∧
    (s.i.toNat + x.val ≤ 0xFFF → ∃ m : Memory, exec (.ldMemVx x) s = .next { s with mem := m, mode := .running } ∧
      (∀ j : Reg, j.val ≤ x.val → m.read (s.i.toNat + j.val) = s.v[j]) ∧
      ∀ a, (a < s.i.toNat ∨ s.i.toNat + x.val < a) → m.read a = s.mem.read a) ∧
    (0xFFF < s.i.toNat + x.val → exec (.ldMemVx x) s = .next { s with
      pc := s.pc - 2
      mode := .halted .memoryOutOfBounds (max s.i.toNat 0x1000) })

/-- R161: `FX65`: `V[0]`..`V[X]` from `I`..`I + X`, the registers above `V[X]` unchanged; `MemoryOutOfBounds` when `I
+ X > 0xFFF`, with no register written. Rests on the spec's own decisions D7, D10 and D21. -/
def Obligations.LoadRegisters : Prop :=
  ∀ (x : Reg) (s : State),
    (encode (.ldVxMem x)).toNat = 0xF065 + 256 * x.val ∧
    (s.i.toNat + x.val ≤ 0xFFF → ∃ r : Vector Byte 16,
      exec (.ldVxMem x) s = .next { s with v := r, mode := .running } ∧
      ∀ j : Reg, r[j] = if j.val ≤ x.val then s.mem.read (s.i.toNat + j.val) else s.v[j]) ∧
    (0xFFF < s.i.toNat + x.val → exec (.ldVxMem x) s = .next { s with
      pc := s.pc - 2
      mode := .halted .memoryOutOfBounds (max s.i.toNat 0x1000) })

/-- R56, R62: two registers stored by `FX55` are what a fetch at their address reads next, the lower-numbered
register as the high byte. Rests on the spec's own derivation in R62. -/
def Obligations.StoreSeenByFetch : Prop :=
  ∀ (x j k : Reg) (s t : State), exec (.ldMemVx x) s = .next t → s.i.toNat + x.val ≤ 0xFFF → k.val = j.val + 1 →
    k.val ≤ x.val → t.pc.toNat = s.i.toNat + j.val →
    t.opcodeAtPc = s.v[j] ++ s.v[k]

/-! ### Frames and whole-machine rules -/

/-- R21, R22, R41: an instruction leaves every `V` register unchanged but those R41 says it writes: its destination,
`VF` for the six flag-producing instructions, `V[0]`..`V[X]` for `FX65`. For all 34 instructions, and when they raise. -/
def Obligations.RegisterFrame : Prop :=
  ∀ (i : Instr) (s t : State), exec i s = .next t → ∀ r : Reg, i.writesReg r = false → t.v[r] = s.v[r]

/-- R41, R53: an instruction leaves every byte of memory unchanged but the bytes it stores, 3 at `I` for `FX33` and
`X + 1` at `I` for `FX55`. For all 34 instructions, and when they raise. -/
def Obligations.MemoryFrame : Prop :=
  ∀ (i : Instr) (s t : State), exec i s = .next t →
    ∀ a, (a < s.i.toNat ∨ s.i.toNat + i.storedBytes ≤ a) → t.mem.read a = s.mem.read a

/-- R23, R27, R28, R30, R31, R32, R33, R36, R38, R41: which instructions may change `I`, `SP`, the stack, the
framebuffer, the dirty flag, `DT`, `ST`, the random stream; none changes `K`, `phase`, the key schedule or the events. -/
def Obligations.SpecialStateFrame : Prop :=
  ∀ (i : Instr) (s t : State), exec i s = .next t →
    (i.writesI = false → t.i = s.i) ∧
    ((i ≠ .ret ∧ ∀ nnn, i ≠ .call nnn) → t.sp = s.sp) ∧
    ((∀ nnn, i ≠ .call nnn) → t.stack = s.stack) ∧
    (i.draws = false → t.fb = s.fb ∧ t.dirty = s.dirty) ∧
    ((∀ x, i ≠ .ldDtVx x) → t.dt = s.dt) ∧
    ((∀ x, i ≠ .ldStVx x) → t.st = s.st) ∧
    ((∀ x nn, i ≠ .rnd x nn) → t.randoms = s.randoms ∧ t.randomDraws = s.randomDraws) ∧
    t.k = s.k ∧ t.phase = s.phase ∧ t.inputs = s.inputs ∧ t.inputDraws = s.inputDraws ∧ t.renders = s.renders

/-- R25: `PC` after every step that executes an instruction: the table's value, and the instruction's own address
when it raises. Rests on the spec's own decisions D10 and D27. -/
def Obligations.PcAfterEveryInstruction : Prop :=
  ∀ (s t : State) (i : Instr), s.takesStep = true → s.pc.toNat ≤ 0xFFE → decodeWord s.opcodeAtPc = .ok i →
    step s = .next t →
    (t.mode.terminal = false → t.pc.toNat = pcAfter s.pc.toNat s.withSample i) ∧
    (t.mode.terminal = true → t.pc = s.pc)

/-- R37, R150: `AwaitingKey` is status only: a step taken in it is the step taken in `Running`. Rests on the spec's
own decision D22. -/
def Obligations.AwaitingKeyIsStatusOnly : Prop :=
  ∀ s : State, step { s with mode := .awaitingKey } = step { s with mode := .running }

/-- R32: no instruction reads `ST`: runs that differ only in it go on differing only in it. Rests on the spec's own
decision D30. -/
def Obligations.SoundTimerIsUnobservable : Prop :=
  ∀ (s t : State) (b : Byte), step s = .next t →
    ∃ u, step { s with st := b } = .next u ∧ { u with st := 0 } = { t with st := 0 }

/-- R33, R41: an instruction other than `EX9E`, `EXA1`, `FX0A` does the same whatever the key latch holds. Rests on
the spec's own decision D2. -/
def Obligations.OnlyKeypadReadsKeys : Prop :=
  ∀ (i : Instr) (s t : State) (keys : BitVec 16), i.readsKeys = false → exec i s = .next t →
    exec i { s with k := keys } = .next { t with k := keys }
end

