-- ==== Sys2Proof/Laws/Decode.lean ====
section
/-! SUPPORT. The opcode map is unambiguous, and what the fields and formats of an opcode are. -/

namespace Sys2Proof

/-- Two rows differ in a bit that both of them fix, so no word is selected by both (R74). -/
def OpcodeRow.disjoint (r q : OpcodeRow) : Bool := (r.fixed ^^^ q.fixed) &&& r.mask &&& q.mask != 0

/-- The masks of no two rows overlap on a common opcode (R74). -/
theorem opcodeMap_disjoint : opcodeMap.Pairwise (fun r q => r.disjoint q = true) := by decide +kernel

theorem OpcodeRow.not_selects_of_disjoint {r q : OpcodeRow} {op : Word} (hd : r.disjoint q = true)
    (hr : r.selects op = true) : q.selects op = false := by
  by_contra hq
  simp only [Bool.not_eq_false, OpcodeRow.selects, beq_iff_eq] at hr hq
  simp only [OpcodeRow.disjoint, bne_iff_ne, ne_eq, ← hr, ← hq] at hd
  apply hd
  ext j hj
  simp only [BitVec.getElem_and, BitVec.getElem_xor]
  cases op[j] <;> cases r.mask[j] <;> cases q.mask[j] <;> simp

theorem find_of_disjoint {rows : List OpcodeRow} {r : OpcodeRow} {op : Word}
    (hp : rows.Pairwise (fun r q => r.disjoint q = true)) (hm : r ∈ rows) (hr : r.selects op = true) :
    rows.find? (·.selects op) = some r := by
  induction rows with
  | nil => simp at hm
  | cons q rest ih =>
    rw [List.pairwise_cons] at hp
    rcases List.mem_cons.mp hm with rfl | h
    · simp [hr]
    · have hq : q.selects op = false := by
        cases hs : q.selects op with
        | false => rfl
        | true => exact absurd hr (by simp [OpcodeRow.not_selects_of_disjoint (hp.1 r h) hs])
      simpa [hq] using ih hp.2 h

/-- A word that a row of the map selects decodes to what that row builds, wherever the row stands. -/
theorem decodeWord_of_row {r : OpcodeRow} {op : Word} (hm : r ∈ opcodeMap) (hr : r.selects op = true) :
    decodeWord op = .ok (r.build op) := by
  rw [decodeWord, find_of_disjoint opcodeMap_disjoint hm hr]

/-- What a decoded word says: some row of the map selects it and built the instruction. -/
theorem row_of_decodeWord {op : Word} {i : Instr} (h : decodeWord op = .ok i) :
    ∃ r ∈ opcodeMap, r.selects op = true ∧ r.build op = i := by
  unfold decodeWord at h
  split at h
  · next r hf =>
    refine ⟨r, List.mem_of_find?_eq_some hf, by simpa using List.find?_some hf, by simpa using h⟩
  · cases h

/-- A refused word is selected by no row. -/
theorem no_row_of_decodeWord_error {op : Word} {e : DecodeError} (h : decodeWord op = .error e) :
    e = .invalidOpcode op ∧ ∀ r ∈ opcodeMap, r.selects op = false := by
  unfold decodeWord at h
  split at h
  · cases h
  · next hf =>
    refine ⟨by simpa using h.symm, fun r hr => by simpa using List.find?_eq_none.mp hf r hr⟩

/-! ### The formats as numbers -/

theorem regNibble_toNat (r : Reg) : (regNibble r).toNat = r.val := by
  simp only [regNibble, BitVec.toNat_ofNat]; omega

theorem formatA_toNat (f : BitVec 4) (nnn : BitVec 12) : (formatA f nnn).toNat = 4096 * f.toNat + nnn.toNat := by
  have := nnn.isLt
  rw [formatA, BitVec.toNat_append, ← Nat.shiftLeft_add_eq_or_of_lt this, Nat.shiftLeft_eq]; omega

theorem formatXB_toNat (f : BitVec 4) (x : Reg) (nn : Byte) :
    (formatXB f x nn).toNat = 4096 * f.toNat + 256 * x.val + nn.toNat := by
  have := nn.isLt
  have hx := (regNibble x).isLt
  rw [formatXB, BitVec.toNat_append, ← Nat.shiftLeft_add_eq_or_of_lt this, BitVec.toNat_append,
    ← Nat.shiftLeft_add_eq_or_of_lt hx, Nat.shiftLeft_eq, Nat.shiftLeft_eq, regNibble_toNat]; omega

theorem formatXY_toNat (f : BitVec 4) (x y : Reg) (n : BitVec 4) :
    (formatXY f x y n).toNat = 4096 * f.toNat + 256 * x.val + 16 * y.val + n.toNat := by
  have := n.isLt
  have hx := (regNibble x).isLt
  have hy := (regNibble y).isLt
  rw [formatXY, BitVec.toNat_append, ← Nat.shiftLeft_add_eq_or_of_lt this, BitVec.toNat_append,
    ← Nat.shiftLeft_add_eq_or_of_lt hy, BitVec.toNat_append, ← Nat.shiftLeft_add_eq_or_of_lt hx,
    Nat.shiftLeft_eq, Nat.shiftLeft_eq, Nat.shiftLeft_eq, regNibble_toNat, regNibble_toNat]; omega

theorem formatXF_toNat (f : BitVec 4) (x : Reg) (fn : Byte) :
    (formatXF f x fn).toNat = 4096 * f.toNat + 256 * x.val + fn.toNat := formatXB_toNat f x fn

/-! ### The fields as numbers -/

theorem fieldX_val (op : Word) : (fieldX op).val = op.toNat / 256 % 16 := by
  simp [fieldX, BitVec.extractLsb'_toNat, Nat.shiftRight_eq_div_pow]

theorem fieldY_val (op : Word) : (fieldY op).val = op.toNat / 16 % 16 := by
  simp [fieldY, BitVec.extractLsb'_toNat, Nat.shiftRight_eq_div_pow]

theorem fieldN_eq (op : Word) : fieldN op = op.toNat % 16 := by
  simp [fieldN, BitVec.extractLsb'_toNat]

theorem fieldNN_toNat (op : Word) : (fieldNN op).toNat = op.toNat % 256 := by
  simp [fieldNN, BitVec.extractLsb'_toNat]

theorem fieldNNN_toNat (op : Word) : (fieldNNN op).toNat = op.toNat % 4096 := by
  simp [fieldNNN, BitVec.extractLsb'_toNat]

/-- The two bytes of a word join to the word again (R55). -/
theorem wordOfBytes_bytes (op : Word) : wordOfBytes (highByte op) (lowByte op) = op := by
  apply BitVec.eq_of_toNat_eq
  have hl := (lowByte op).isLt
  have := op.isLt
  rw [wordOfBytes, BitVec.toNat_append, ← Nat.shiftLeft_add_eq_or_of_lt hl, Nat.shiftLeft_eq]
  simp only [highByte, lowByte, BitVec.extractLsb'_toNat, Nat.shiftRight_eq_div_pow]
  omega

end Sys2Proof
end

