-- ==== Sys2Proof/Laws/Draw.lean ====
section
/-! SUPPORT. What a draw does to the framebuffer: it XORs one mask that does not depend on the framebuffer (R144). -/

namespace Sys2Proof.Machine

/-- The cells of a list, as the mask a draw XORs. -/
def cellMask (cells : List Nat) : Frame := cells.foldl (fun m j => m ^^^ BitVec.twoPow 2048 j) 0#2048

theorem foldl_flipCell_fst (cells : List Nat) (p : Frame × Bool) :
    (cells.foldl flipCell p).1 = cells.foldl (fun m j => m ^^^ BitVec.twoPow 2048 j) p.1 := by
  induction cells generalizing p with
  | nil => rfl
  | cons j rest ih => simpa [flipCell] using ih (flipCell p j)

theorem foldl_xor_start (cells : List Nat) (f g : Frame) :
    cells.foldl (fun m j => m ^^^ BitVec.twoPow 2048 j) (f ^^^ g) =
      f ^^^ cells.foldl (fun m j => m ^^^ BitVec.twoPow 2048 j) g := by
  induction cells generalizing g with
  | nil => rfl
  | cons j rest ih => simp only [List.foldl_cons, BitVec.xor_assoc, ih]

/-- The framebuffer after a draw is the one before XOR the mask of the cells. -/
theorem drawCells_fst (fb : Frame) (cells : List Nat) : (drawCells fb cells).1 = fb ^^^ cellMask cells := by
  have := foldl_xor_start cells fb 0#2048
  rw [BitVec.xor_zero] at this
  rw [drawCells, foldl_flipCell_fst, this, cellMask]

/-- Without repeated cells, the mask has exactly the listed bits. -/
theorem cellMask_getLsbD (cells : List Nat) (hn : cells.Nodup) (hb : ∀ j ∈ cells, j < 2048) (j : Nat) :
    (cellMask cells).getLsbD j = decide (j ∈ cells) := by
  induction cells with
  | nil => simp [cellMask]
  | cons a rest ih =>
    rw [List.nodup_cons] at hn
    have ih := ih hn.2 (fun j hj => hb j (by simp [hj]))
    have ha : a < 2048 := hb a (by simp)
    have hs : cellMask (a :: rest) = BitVec.twoPow 2048 a ^^^ cellMask rest := by
      have := foldl_xor_start rest (BitVec.twoPow 2048 a) 0#2048
      rw [BitVec.xor_zero] at this
      rw [cellMask, List.foldl_cons, BitVec.zero_xor, this, cellMask]
    rw [hs, BitVec.getLsbD_xor, ih, BitVec.getLsbD_twoPow]
    by_cases h : a = j
    · subst h; simp [hn.1, ha]
    · simp [h, Ne.symm h]

/-- Without repeated cells, `hit` says that some listed cell was set. -/
theorem foldl_flipCell_snd (cells : List Nat) (hn : cells.Nodup) (hb : ∀ j ∈ cells, j < 2048) (fb : Frame) (b : Bool) :
    (cells.foldl flipCell (fb, b)).2 = (b || cells.any (fun j => fb.getLsbD j)) := by
  induction cells generalizing fb b with
  | nil => simp
  | cons a rest ih =>
    rw [List.nodup_cons] at hn
    rw [List.foldl_cons, flipCell, ih hn.2 (fun j hj => hb j (by simp [hj])), List.any_cons, Bool.or_assoc]
    congr 2
    apply Bool.eq_iff_iff.mpr
    simp only [List.any_eq_true]
    refine exists_congr fun j => and_congr_right fun hj => ?_
    have : a ≠ j := fun e => hn.1 (e ▸ hj)
    simp [BitVec.getLsbD_xor, BitVec.getLsbD_twoPow, this]

theorem drawCells_snd (fb : Frame) (cells : List Nat) (hn : cells.Nodup) (hb : ∀ j ∈ cells, j < 2048) :
    (drawCells fb cells).2 = cells.any (fun j => fb.getLsbD j) := by
  rw [drawCells, foldl_flipCell_snd cells hn hb]; simp

/-- Which cells a sprite addresses: one for each set bit of each row (R143). -/
theorem mem_spriteCells (m : Memory) (a : Nat) (px py : Byte) (n j : Nat) :
    j ∈ spriteCells m a px py n ↔
      ∃ r c, r < n ∧ c < 8 ∧ (m.read (a + r)).getLsbD (7 - c) = true ∧
        j = (px.toNat + c + 64 * (py.toNat + r)) % 2048 := by
  simp only [spriteCells, rowCells, List.mem_flatMap, List.mem_range, List.mem_map, List.mem_filter, spriteCell]
  constructor
  · rintro ⟨r, hr, c, ⟨hc, hs⟩, rfl⟩
    exact ⟨r, c, hr, hc, hs, rfl⟩
  · rintro ⟨r, c, hr, hc, hs, rfl⟩
    exact ⟨r, hr, c, ⟨hc, hs⟩, rfl⟩

theorem spriteCells_lt (m : Memory) (a : Nat) (px py : Byte) (n : Nat) : ∀ j ∈ spriteCells m a px py n, j < 2048 := by
  intro j hj
  obtain ⟨r, c, -, -, -, rfl⟩ := (mem_spriteCells m a px py n j).mp hj
  omega

/-- No two sprite pixels land on the same cell (R144): up to 32 rows. -/
theorem spriteCells_nodup (m : Memory) (a : Nat) (px py : Byte) (n : Nat) (hn : n ≤ 32) :
    (spriteCells m a px py n).Nodup := by
  rw [spriteCells, List.nodup_flatMap]
  constructor
  · intro r hr
    refine List.Nodup.map_on ?_ (List.nodup_range.filter _)
    intro c hc d hd h
    simp only [List.mem_filter, List.mem_range] at hc hd
    simp only [spriteCell] at h
    omega
  · refine List.Pairwise.imp_of_mem ?_ (List.nodup_range (n := n))
    intro r q hr hq hne
    simp only [List.mem_range] at hr hq
    intro j hj hk
    simp only [rowCells, List.mem_map, List.mem_filter, List.mem_range, spriteCell] at hj hk
    obtain ⟨c, ⟨hc, -⟩, rfl⟩ := hj
    obtain ⟨d, ⟨hd, -⟩, h⟩ := hk
    omega

end Sys2Proof.Machine
end

