-- ==== Sys2Proof/Laws/Memory.lean ====
section
/-! SUPPORT. What the memory operations do: a read after a write, and that every operation keeps the canonical form. -/

namespace Sys2Proof.Machine

/-! ### Reads after writes -/

theorem Memory.read_erase_same (m : Memory) (a : Nat) : (m.erase a).read a = Memory.unlisted a := by
  induction m with
  | nil => rfl
  | cons c rest ih =>
    by_cases h : c.1 = a
    · simpa [Memory.erase, h] using ih
    · simpa [Memory.erase, h, Memory.read] using ih

theorem Memory.read_erase_other (m : Memory) (a a' : Nat) (h : a' ≠ a) : (m.erase a).read a' = m.read a' := by
  induction m with
  | nil => rfl
  | cons c rest ih =>
    by_cases hc : c.1 = a
    · have : c.1 ≠ a' := fun e => h (e ▸ hc)
      simpa [Memory.erase, hc, Memory.read, Ne.symm h] using ih
    · by_cases hr : c.1 = a'
      · simp [Memory.erase, Memory.read, hr, h]
      · simpa [Memory.erase, hc, Memory.read, hr] using ih

theorem Memory.read_insert_same (m : Memory) (a : Nat) (b : Byte) (h : ∀ c ∈ m, c.1 ≠ a) :
    (m.insert a b).read a = b := by
  induction m with
  | nil => simp [Memory.insert, Memory.read]
  | cons c rest ih =>
    have hc : c.1 ≠ a := h c (by simp)
    have hr := ih (fun d hd => h d (by simp [hd]))
    by_cases hlt : a < c.1
    · simp [Memory.insert, Memory.read, hlt]
    · simpa [Memory.insert, Memory.read, hlt, hc] using hr

theorem Memory.read_insert_other (m : Memory) (a a' : Nat) (b : Byte) (h : a' ≠ a) :
    (m.insert a b).read a' = m.read a' := by
  induction m with
  | nil => simp [Memory.insert, Memory.read, Ne.symm h]
  | cons c rest ih =>
    by_cases hlt : a < c.1
    · simp [Memory.insert, Memory.read, hlt, Ne.symm h]
    · simp [Memory.insert, Memory.read, hlt, ih]

theorem Memory.erase_lacks (m : Memory) (a : Nat) : ∀ c ∈ m.erase a, c.1 ≠ a := by
  intro c hc
  simpa [Memory.erase] using (List.mem_filter.mp hc).2

/-- A read after a write to the same address gives the byte written. -/
@[simp] theorem Memory.read_write_same (m : Memory) (a : Nat) (b : Byte) : (m.write a b).read a = b := by
  unfold Memory.write
  split
  · next h => rw [Memory.read_erase_same, h]
  · exact Memory.read_insert_same _ _ _ (Memory.erase_lacks m a)

/-- A write leaves every other address alone. -/
theorem Memory.read_write_other (m : Memory) (a a' : Nat) (b : Byte) (h : a' ≠ a) :
    (m.write a b).read a' = m.read a' := by
  unfold Memory.write
  split
  · exact Memory.read_erase_other m a a' h
  · rw [Memory.read_insert_other _ _ _ _ h, Memory.read_erase_other m a a' h]

/-- A block of bytes written leaves every address outside the block alone. -/
theorem Memory.read_writeBytes_outside (m : Memory) (a a' : Nat) (bs : List Byte)
    (h : a' < a ∨ a + bs.length ≤ a') : (m.writeBytes a bs).read a' = m.read a' := by
  induction bs generalizing m a with
  | nil => rfl
  | cons b rest ih =>
    simp only [List.length_cons] at h
    rw [Memory.writeBytes, ih (m.write a b) (a + 1) (by omega), Memory.read_write_other _ _ _ _ (by omega)]

/-- Byte `j` of a block written reads back at `a + j`. -/
theorem Memory.read_writeBytes_inside (m : Memory) (a j : Nat) (bs : List Byte) (h : j < bs.length) :
    (m.writeBytes a bs).read (a + j) = bs[j] := by
  induction bs generalizing m a j with
  | nil => simp at h
  | cons b rest ih =>
    cases j with
    | zero =>
      rw [Memory.writeBytes, Nat.add_zero, Memory.read_writeBytes_outside _ _ _ _ (by omega)]
      simp
    | succ j =>
      have := ih (m.write a b) (a + 1) j (by simpa using h)
      rw [Memory.writeBytes, show a + (j + 1) = a + 1 + j by omega, this]
      simp

/-! ### The canonical form -/

theorem Memory.risesFrom_mono (m : Memory) {low low' : Nat} (h : low' ≤ low) (hm : m.risesFrom low = true) :
    m.risesFrom low' = true := by
  cases m with
  | nil => rfl
  | cons c rest =>
    simp only [Memory.risesFrom, Bool.and_eq_true, decide_eq_true_eq] at hm ⊢
    exact ⟨by omega, hm.2⟩

theorem Memory.risesFrom_erase (m : Memory) (a low : Nat) (hm : m.risesFrom low = true) :
    (m.erase a).risesFrom low = true := by
  induction m generalizing low with
  | nil => rfl
  | cons c rest ih =>
    simp only [Memory.risesFrom, Bool.and_eq_true, decide_eq_true_eq] at hm
    have hr := ih _ hm.2
    by_cases h : c.1 = a
    · have := Memory.risesFrom_mono _ (show low ≤ c.1 + 1 by omega) hr
      simpa [Memory.erase, h] using this
    · simp only [Memory.erase] at hr
      simp [Memory.erase, h, Memory.risesFrom, hm.1, hr]

theorem Memory.risesFrom_insert (m : Memory) (a low : Nat) (b : Byte) (hl : low ≤ a) (hm : m.risesFrom low = true)
    (ha : ∀ c ∈ m, c.1 ≠ a) : (m.insert a b).risesFrom low = true := by
  induction m generalizing low with
  | nil => simp [Memory.insert, Memory.risesFrom, hl]
  | cons c rest ih =>
    simp only [Memory.risesFrom, Bool.and_eq_true, decide_eq_true_eq] at hm
    have hc : c.1 ≠ a := ha c (by simp)
    by_cases hlt : a < c.1
    · simp only [Memory.insert, hlt, if_true, Memory.risesFrom, Bool.and_eq_true, decide_eq_true_eq]
      exact ⟨hl, by omega, hm.2⟩
    · simp only [Memory.insert, hlt, if_false, Memory.risesFrom, Bool.and_eq_true, decide_eq_true_eq]
      exact ⟨hm.1, ih _ (by omega) hm.2 (fun d hd => ha d (by simp [hd]))⟩

theorem Memory.mem_insert {m : Memory} {a : Nat} {b : Byte} {c : Host.Cell} (h : c ∈ m.insert a b) :
    c = (a, b) ∨ c ∈ m := by
  induction m with
  | nil => simpa [Memory.insert] using h
  | cons d rest ih =>
    by_cases hlt : a < d.1
    · simpa [Memory.insert, hlt] using h
    · simp only [Memory.insert, hlt, if_false, List.mem_cons] at h ⊢
      rcases h with h | h
      · exact Or.inr (Or.inl h)
      · exact (ih h).imp id Or.inr

theorem Memory.wf_iff (m : Memory) : m.wf = true ↔
    m.risesFrom 0 = true ∧ ∀ c ∈ m, c.1 < Config.memSize ∧ c.2 ≠ Memory.unlisted c.1 := by
  simp [Memory.wf, List.all_eq_true]

/-- A write to an address of the memory keeps the canonical form. -/
theorem Memory.wf_write (m : Memory) (a : Nat) (b : Byte) (ha : a < Config.memSize) (hm : m.wf = true) :
    (m.write a b).wf = true := by
  rw [Memory.wf_iff] at hm ⊢
  have he : (m.erase a).risesFrom 0 = true := Memory.risesFrom_erase m a 0 hm.1
  have hsub : ∀ c ∈ m.erase a, c ∈ m := fun c hc => (List.mem_filter.mp hc).1
  unfold Memory.write
  split
  · exact ⟨he, fun c hc => hm.2 c (hsub c hc)⟩
  · next hb =>
    refine ⟨Memory.risesFrom_insert _ _ _ _ (Nat.zero_le a) he (Memory.erase_lacks m a), fun c hc => ?_⟩
    rcases Memory.mem_insert hc with h | h
    · subst h; exact ⟨ha, hb⟩
    · exact hm.2 c (hsub c h)

/-- A block of bytes inside the memory keeps the canonical form. -/
theorem Memory.wf_writeBytes (m : Memory) (a : Nat) (bs : List Byte) (ha : a + bs.length ≤ Config.memSize)
    (hm : m.wf = true) : (m.writeBytes a bs).wf = true := by
  induction bs generalizing m a with
  | nil => exact hm
  | cons b rest ih =>
    simp only [List.length_cons] at ha
    exact ih (m.write a b) (a + 1) (by omega) (Memory.wf_write m a b (by omega) hm)

/-- Memory at reset lists nothing and has the canonical form. -/
theorem reset_memory_wf : State.reset.mem.wf = true := by decide

end Sys2Proof.Machine
end

