-- ==== Sys2Proof/Laws/State.lean ====
section
/-! SUPPORT. One lemma per field per update of the state, all true by definition: no proof unfolds a record update. -/

namespace Sys2Proof.Machine

variable (s : State)

/-! `setV` -/

@[simp] theorem State.setV_v (x : Reg) (b : Byte) : (s.setV x b).v = s.v.set x.val b x.isLt := rfl
@[simp] theorem State.setV_i (x : Reg) (b : Byte) : (s.setV x b).i = s.i := rfl
@[simp] theorem State.setV_pc (x : Reg) (b : Byte) : (s.setV x b).pc = s.pc := rfl
@[simp] theorem State.setV_sp (x : Reg) (b : Byte) : (s.setV x b).sp = s.sp := rfl
@[simp] theorem State.setV_stack (x : Reg) (b : Byte) : (s.setV x b).stack = s.stack := rfl
@[simp] theorem State.setV_mem (x : Reg) (b : Byte) : (s.setV x b).mem = s.mem := rfl
@[simp] theorem State.setV_fb (x : Reg) (b : Byte) : (s.setV x b).fb = s.fb := rfl
@[simp] theorem State.setV_dt (x : Reg) (b : Byte) : (s.setV x b).dt = s.dt := rfl
@[simp] theorem State.setV_st (x : Reg) (b : Byte) : (s.setV x b).st = s.st := rfl
@[simp] theorem State.setV_k (x : Reg) (b : Byte) : (s.setV x b).k = s.k := rfl
@[simp] theorem State.setV_dirty (x : Reg) (b : Byte) : (s.setV x b).dirty = s.dirty := rfl
@[simp] theorem State.setV_mode (x : Reg) (b : Byte) : (s.setV x b).mode = s.mode := rfl
@[simp] theorem State.setV_phase (x : Reg) (b : Byte) : (s.setV x b).phase = s.phase := rfl
@[simp] theorem State.setV_inputs (x : Reg) (b : Byte) : (s.setV x b).inputs = s.inputs := rfl
@[simp] theorem State.setV_inputDraws (x : Reg) (b : Byte) : (s.setV x b).inputDraws = s.inputDraws := rfl
@[simp] theorem State.setV_randoms (x : Reg) (b : Byte) : (s.setV x b).randoms = s.randoms := rfl
@[simp] theorem State.setV_randomDraws (x : Reg) (b : Byte) : (s.setV x b).randomDraws = s.randomDraws := rfl
@[simp] theorem State.setV_renders (x : Reg) (b : Byte) : (s.setV x b).renders = s.renders := rfl

/-! `setRegs` -/

@[simp] theorem State.setRegs_v (r : Vector Byte 16) : (s.setRegs r).v = r := rfl
@[simp] theorem State.setRegs_i (r : Vector Byte 16) : (s.setRegs r).i = s.i := rfl
@[simp] theorem State.setRegs_pc (r : Vector Byte 16) : (s.setRegs r).pc = s.pc := rfl
@[simp] theorem State.setRegs_sp (r : Vector Byte 16) : (s.setRegs r).sp = s.sp := rfl
@[simp] theorem State.setRegs_stack (r : Vector Byte 16) : (s.setRegs r).stack = s.stack := rfl
@[simp] theorem State.setRegs_mem (r : Vector Byte 16) : (s.setRegs r).mem = s.mem := rfl
@[simp] theorem State.setRegs_fb (r : Vector Byte 16) : (s.setRegs r).fb = s.fb := rfl
@[simp] theorem State.setRegs_dt (r : Vector Byte 16) : (s.setRegs r).dt = s.dt := rfl
@[simp] theorem State.setRegs_st (r : Vector Byte 16) : (s.setRegs r).st = s.st := rfl
@[simp] theorem State.setRegs_k (r : Vector Byte 16) : (s.setRegs r).k = s.k := rfl
@[simp] theorem State.setRegs_dirty (r : Vector Byte 16) : (s.setRegs r).dirty = s.dirty := rfl
@[simp] theorem State.setRegs_mode (r : Vector Byte 16) : (s.setRegs r).mode = s.mode := rfl
@[simp] theorem State.setRegs_phase (r : Vector Byte 16) : (s.setRegs r).phase = s.phase := rfl
@[simp] theorem State.setRegs_inputs (r : Vector Byte 16) : (s.setRegs r).inputs = s.inputs := rfl
@[simp] theorem State.setRegs_inputDraws (r : Vector Byte 16) : (s.setRegs r).inputDraws = s.inputDraws := rfl
@[simp] theorem State.setRegs_randoms (r : Vector Byte 16) : (s.setRegs r).randoms = s.randoms := rfl
@[simp] theorem State.setRegs_randomDraws (r : Vector Byte 16) : (s.setRegs r).randomDraws = s.randomDraws := rfl
@[simp] theorem State.setRegs_renders (r : Vector Byte 16) : (s.setRegs r).renders = s.renders := rfl

/-! `setI` -/

@[simp] theorem State.setI_v (a : Word) : (s.setI a).v = s.v := rfl
@[simp] theorem State.setI_i (a : Word) : (s.setI a).i = a := rfl
@[simp] theorem State.setI_pc (a : Word) : (s.setI a).pc = s.pc := rfl
@[simp] theorem State.setI_sp (a : Word) : (s.setI a).sp = s.sp := rfl
@[simp] theorem State.setI_stack (a : Word) : (s.setI a).stack = s.stack := rfl
@[simp] theorem State.setI_mem (a : Word) : (s.setI a).mem = s.mem := rfl
@[simp] theorem State.setI_fb (a : Word) : (s.setI a).fb = s.fb := rfl
@[simp] theorem State.setI_dt (a : Word) : (s.setI a).dt = s.dt := rfl
@[simp] theorem State.setI_st (a : Word) : (s.setI a).st = s.st := rfl
@[simp] theorem State.setI_k (a : Word) : (s.setI a).k = s.k := rfl
@[simp] theorem State.setI_dirty (a : Word) : (s.setI a).dirty = s.dirty := rfl
@[simp] theorem State.setI_mode (a : Word) : (s.setI a).mode = s.mode := rfl
@[simp] theorem State.setI_phase (a : Word) : (s.setI a).phase = s.phase := rfl
@[simp] theorem State.setI_inputs (a : Word) : (s.setI a).inputs = s.inputs := rfl
@[simp] theorem State.setI_inputDraws (a : Word) : (s.setI a).inputDraws = s.inputDraws := rfl
@[simp] theorem State.setI_randoms (a : Word) : (s.setI a).randoms = s.randoms := rfl
@[simp] theorem State.setI_randomDraws (a : Word) : (s.setI a).randomDraws = s.randomDraws := rfl
@[simp] theorem State.setI_renders (a : Word) : (s.setI a).renders = s.renders := rfl

/-! `setPc` -/

@[simp] theorem State.setPc_v (a : Word) : (s.setPc a).v = s.v := rfl
@[simp] theorem State.setPc_i (a : Word) : (s.setPc a).i = s.i := rfl
@[simp] theorem State.setPc_pc (a : Word) : (s.setPc a).pc = a := rfl
@[simp] theorem State.setPc_sp (a : Word) : (s.setPc a).sp = s.sp := rfl
@[simp] theorem State.setPc_stack (a : Word) : (s.setPc a).stack = s.stack := rfl
@[simp] theorem State.setPc_mem (a : Word) : (s.setPc a).mem = s.mem := rfl
@[simp] theorem State.setPc_fb (a : Word) : (s.setPc a).fb = s.fb := rfl
@[simp] theorem State.setPc_dt (a : Word) : (s.setPc a).dt = s.dt := rfl
@[simp] theorem State.setPc_st (a : Word) : (s.setPc a).st = s.st := rfl
@[simp] theorem State.setPc_k (a : Word) : (s.setPc a).k = s.k := rfl
@[simp] theorem State.setPc_dirty (a : Word) : (s.setPc a).dirty = s.dirty := rfl
@[simp] theorem State.setPc_mode (a : Word) : (s.setPc a).mode = s.mode := rfl
@[simp] theorem State.setPc_phase (a : Word) : (s.setPc a).phase = s.phase := rfl
@[simp] theorem State.setPc_inputs (a : Word) : (s.setPc a).inputs = s.inputs := rfl
@[simp] theorem State.setPc_inputDraws (a : Word) : (s.setPc a).inputDraws = s.inputDraws := rfl
@[simp] theorem State.setPc_randoms (a : Word) : (s.setPc a).randoms = s.randoms := rfl
@[simp] theorem State.setPc_randomDraws (a : Word) : (s.setPc a).randomDraws = s.randomDraws := rfl
@[simp] theorem State.setPc_renders (a : Word) : (s.setPc a).renders = s.renders := rfl

/-! `setSp` -/

@[simp] theorem State.setSp_v (n : BitVec 8) : (s.setSp n).v = s.v := rfl
@[simp] theorem State.setSp_i (n : BitVec 8) : (s.setSp n).i = s.i := rfl
@[simp] theorem State.setSp_pc (n : BitVec 8) : (s.setSp n).pc = s.pc := rfl
@[simp] theorem State.setSp_sp (n : BitVec 8) : (s.setSp n).sp = n := rfl
@[simp] theorem State.setSp_stack (n : BitVec 8) : (s.setSp n).stack = s.stack := rfl
@[simp] theorem State.setSp_mem (n : BitVec 8) : (s.setSp n).mem = s.mem := rfl
@[simp] theorem State.setSp_fb (n : BitVec 8) : (s.setSp n).fb = s.fb := rfl
@[simp] theorem State.setSp_dt (n : BitVec 8) : (s.setSp n).dt = s.dt := rfl
@[simp] theorem State.setSp_st (n : BitVec 8) : (s.setSp n).st = s.st := rfl
@[simp] theorem State.setSp_k (n : BitVec 8) : (s.setSp n).k = s.k := rfl
@[simp] theorem State.setSp_dirty (n : BitVec 8) : (s.setSp n).dirty = s.dirty := rfl
@[simp] theorem State.setSp_mode (n : BitVec 8) : (s.setSp n).mode = s.mode := rfl
@[simp] theorem State.setSp_phase (n : BitVec 8) : (s.setSp n).phase = s.phase := rfl
@[simp] theorem State.setSp_inputs (n : BitVec 8) : (s.setSp n).inputs = s.inputs := rfl
@[simp] theorem State.setSp_inputDraws (n : BitVec 8) : (s.setSp n).inputDraws = s.inputDraws := rfl
@[simp] theorem State.setSp_randoms (n : BitVec 8) : (s.setSp n).randoms = s.randoms := rfl
@[simp] theorem State.setSp_randomDraws (n : BitVec 8) : (s.setSp n).randomDraws = s.randomDraws := rfl
@[simp] theorem State.setSp_renders (n : BitVec 8) : (s.setSp n).renders = s.renders := rfl

/-! `setStack` -/

@[simp] theorem State.setStack_v (n : Nat) (a : Word) : (s.setStack n a).v = s.v := rfl
@[simp] theorem State.setStack_i (n : Nat) (a : Word) : (s.setStack n a).i = s.i := rfl
@[simp] theorem State.setStack_pc (n : Nat) (a : Word) : (s.setStack n a).pc = s.pc := rfl
@[simp] theorem State.setStack_sp (n : Nat) (a : Word) : (s.setStack n a).sp = s.sp := rfl
@[simp] theorem State.setStack_stack (n : Nat) (a : Word) : (s.setStack n a).stack = s.stack.setIfInBounds n a := rfl
@[simp] theorem State.setStack_mem (n : Nat) (a : Word) : (s.setStack n a).mem = s.mem := rfl
@[simp] theorem State.setStack_fb (n : Nat) (a : Word) : (s.setStack n a).fb = s.fb := rfl
@[simp] theorem State.setStack_dt (n : Nat) (a : Word) : (s.setStack n a).dt = s.dt := rfl
@[simp] theorem State.setStack_st (n : Nat) (a : Word) : (s.setStack n a).st = s.st := rfl
@[simp] theorem State.setStack_k (n : Nat) (a : Word) : (s.setStack n a).k = s.k := rfl
@[simp] theorem State.setStack_dirty (n : Nat) (a : Word) : (s.setStack n a).dirty = s.dirty := rfl
@[simp] theorem State.setStack_mode (n : Nat) (a : Word) : (s.setStack n a).mode = s.mode := rfl
@[simp] theorem State.setStack_phase (n : Nat) (a : Word) : (s.setStack n a).phase = s.phase := rfl
@[simp] theorem State.setStack_inputs (n : Nat) (a : Word) : (s.setStack n a).inputs = s.inputs := rfl
@[simp] theorem State.setStack_inputDraws (n : Nat) (a : Word) : (s.setStack n a).inputDraws = s.inputDraws := rfl
@[simp] theorem State.setStack_randoms (n : Nat) (a : Word) : (s.setStack n a).randoms = s.randoms := rfl
@[simp] theorem State.setStack_randomDraws (n : Nat) (a : Word) : (s.setStack n a).randomDraws = s.randomDraws := rfl
@[simp] theorem State.setStack_renders (n : Nat) (a : Word) : (s.setStack n a).renders = s.renders := rfl

/-! `setMem` -/

@[simp] theorem State.setMem_v (m : Memory) : (s.setMem m).v = s.v := rfl
@[simp] theorem State.setMem_i (m : Memory) : (s.setMem m).i = s.i := rfl
@[simp] theorem State.setMem_pc (m : Memory) : (s.setMem m).pc = s.pc := rfl
@[simp] theorem State.setMem_sp (m : Memory) : (s.setMem m).sp = s.sp := rfl
@[simp] theorem State.setMem_stack (m : Memory) : (s.setMem m).stack = s.stack := rfl
@[simp] theorem State.setMem_mem (m : Memory) : (s.setMem m).mem = m := rfl
@[simp] theorem State.setMem_fb (m : Memory) : (s.setMem m).fb = s.fb := rfl
@[simp] theorem State.setMem_dt (m : Memory) : (s.setMem m).dt = s.dt := rfl
@[simp] theorem State.setMem_st (m : Memory) : (s.setMem m).st = s.st := rfl
@[simp] theorem State.setMem_k (m : Memory) : (s.setMem m).k = s.k := rfl
@[simp] theorem State.setMem_dirty (m : Memory) : (s.setMem m).dirty = s.dirty := rfl
@[simp] theorem State.setMem_mode (m : Memory) : (s.setMem m).mode = s.mode := rfl
@[simp] theorem State.setMem_phase (m : Memory) : (s.setMem m).phase = s.phase := rfl
@[simp] theorem State.setMem_inputs (m : Memory) : (s.setMem m).inputs = s.inputs := rfl
@[simp] theorem State.setMem_inputDraws (m : Memory) : (s.setMem m).inputDraws = s.inputDraws := rfl
@[simp] theorem State.setMem_randoms (m : Memory) : (s.setMem m).randoms = s.randoms := rfl
@[simp] theorem State.setMem_randomDraws (m : Memory) : (s.setMem m).randomDraws = s.randomDraws := rfl
@[simp] theorem State.setMem_renders (m : Memory) : (s.setMem m).renders = s.renders := rfl

/-! `setScreen` -/

@[simp] theorem State.setScreen_v (f : Frame) : (s.setScreen f).v = s.v := rfl
@[simp] theorem State.setScreen_i (f : Frame) : (s.setScreen f).i = s.i := rfl
@[simp] theorem State.setScreen_pc (f : Frame) : (s.setScreen f).pc = s.pc := rfl
@[simp] theorem State.setScreen_sp (f : Frame) : (s.setScreen f).sp = s.sp := rfl
@[simp] theorem State.setScreen_stack (f : Frame) : (s.setScreen f).stack = s.stack := rfl
@[simp] theorem State.setScreen_mem (f : Frame) : (s.setScreen f).mem = s.mem := rfl
@[simp] theorem State.setScreen_fb (f : Frame) : (s.setScreen f).fb = f := rfl
@[simp] theorem State.setScreen_dt (f : Frame) : (s.setScreen f).dt = s.dt := rfl
@[simp] theorem State.setScreen_st (f : Frame) : (s.setScreen f).st = s.st := rfl
@[simp] theorem State.setScreen_k (f : Frame) : (s.setScreen f).k = s.k := rfl
@[simp] theorem State.setScreen_dirty (f : Frame) : (s.setScreen f).dirty = true := rfl
@[simp] theorem State.setScreen_mode (f : Frame) : (s.setScreen f).mode = s.mode := rfl
@[simp] theorem State.setScreen_phase (f : Frame) : (s.setScreen f).phase = s.phase := rfl
@[simp] theorem State.setScreen_inputs (f : Frame) : (s.setScreen f).inputs = s.inputs := rfl
@[simp] theorem State.setScreen_inputDraws (f : Frame) : (s.setScreen f).inputDraws = s.inputDraws := rfl
@[simp] theorem State.setScreen_randoms (f : Frame) : (s.setScreen f).randoms = s.randoms := rfl
@[simp] theorem State.setScreen_randomDraws (f : Frame) : (s.setScreen f).randomDraws = s.randomDraws := rfl
@[simp] theorem State.setScreen_renders (f : Frame) : (s.setScreen f).renders = s.renders := rfl

/-! `setDt` -/

@[simp] theorem State.setDt_v (b : Byte) : (s.setDt b).v = s.v := rfl
@[simp] theorem State.setDt_i (b : Byte) : (s.setDt b).i = s.i := rfl
@[simp] theorem State.setDt_pc (b : Byte) : (s.setDt b).pc = s.pc := rfl
@[simp] theorem State.setDt_sp (b : Byte) : (s.setDt b).sp = s.sp := rfl
@[simp] theorem State.setDt_stack (b : Byte) : (s.setDt b).stack = s.stack := rfl
@[simp] theorem State.setDt_mem (b : Byte) : (s.setDt b).mem = s.mem := rfl
@[simp] theorem State.setDt_fb (b : Byte) : (s.setDt b).fb = s.fb := rfl
@[simp] theorem State.setDt_dt (b : Byte) : (s.setDt b).dt = b := rfl
@[simp] theorem State.setDt_st (b : Byte) : (s.setDt b).st = s.st := rfl
@[simp] theorem State.setDt_k (b : Byte) : (s.setDt b).k = s.k := rfl
@[simp] theorem State.setDt_dirty (b : Byte) : (s.setDt b).dirty = s.dirty := rfl
@[simp] theorem State.setDt_mode (b : Byte) : (s.setDt b).mode = s.mode := rfl
@[simp] theorem State.setDt_phase (b : Byte) : (s.setDt b).phase = s.phase := rfl
@[simp] theorem State.setDt_inputs (b : Byte) : (s.setDt b).inputs = s.inputs := rfl
@[simp] theorem State.setDt_inputDraws (b : Byte) : (s.setDt b).inputDraws = s.inputDraws := rfl
@[simp] theorem State.setDt_randoms (b : Byte) : (s.setDt b).randoms = s.randoms := rfl
@[simp] theorem State.setDt_randomDraws (b : Byte) : (s.setDt b).randomDraws = s.randomDraws := rfl
@[simp] theorem State.setDt_renders (b : Byte) : (s.setDt b).renders = s.renders := rfl

/-! `setSt` -/

@[simp] theorem State.setSt_v (b : Byte) : (s.setSt b).v = s.v := rfl
@[simp] theorem State.setSt_i (b : Byte) : (s.setSt b).i = s.i := rfl
@[simp] theorem State.setSt_pc (b : Byte) : (s.setSt b).pc = s.pc := rfl
@[simp] theorem State.setSt_sp (b : Byte) : (s.setSt b).sp = s.sp := rfl
@[simp] theorem State.setSt_stack (b : Byte) : (s.setSt b).stack = s.stack := rfl
@[simp] theorem State.setSt_mem (b : Byte) : (s.setSt b).mem = s.mem := rfl
@[simp] theorem State.setSt_fb (b : Byte) : (s.setSt b).fb = s.fb := rfl
@[simp] theorem State.setSt_dt (b : Byte) : (s.setSt b).dt = s.dt := rfl
@[simp] theorem State.setSt_st (b : Byte) : (s.setSt b).st = b := rfl
@[simp] theorem State.setSt_k (b : Byte) : (s.setSt b).k = s.k := rfl
@[simp] theorem State.setSt_dirty (b : Byte) : (s.setSt b).dirty = s.dirty := rfl
@[simp] theorem State.setSt_mode (b : Byte) : (s.setSt b).mode = s.mode := rfl
@[simp] theorem State.setSt_phase (b : Byte) : (s.setSt b).phase = s.phase := rfl
@[simp] theorem State.setSt_inputs (b : Byte) : (s.setSt b).inputs = s.inputs := rfl
@[simp] theorem State.setSt_inputDraws (b : Byte) : (s.setSt b).inputDraws = s.inputDraws := rfl
@[simp] theorem State.setSt_randoms (b : Byte) : (s.setSt b).randoms = s.randoms := rfl
@[simp] theorem State.setSt_randomDraws (b : Byte) : (s.setSt b).randomDraws = s.randomDraws := rfl
@[simp] theorem State.setSt_renders (b : Byte) : (s.setSt b).renders = s.renders := rfl

/-! `setMode` -/

@[simp] theorem State.setMode_v (m : Mode) : (s.setMode m).v = s.v := rfl
@[simp] theorem State.setMode_i (m : Mode) : (s.setMode m).i = s.i := rfl
@[simp] theorem State.setMode_pc (m : Mode) : (s.setMode m).pc = s.pc := rfl
@[simp] theorem State.setMode_sp (m : Mode) : (s.setMode m).sp = s.sp := rfl
@[simp] theorem State.setMode_stack (m : Mode) : (s.setMode m).stack = s.stack := rfl
@[simp] theorem State.setMode_mem (m : Mode) : (s.setMode m).mem = s.mem := rfl
@[simp] theorem State.setMode_fb (m : Mode) : (s.setMode m).fb = s.fb := rfl
@[simp] theorem State.setMode_dt (m : Mode) : (s.setMode m).dt = s.dt := rfl
@[simp] theorem State.setMode_st (m : Mode) : (s.setMode m).st = s.st := rfl
@[simp] theorem State.setMode_k (m : Mode) : (s.setMode m).k = s.k := rfl
@[simp] theorem State.setMode_dirty (m : Mode) : (s.setMode m).dirty = s.dirty := rfl
@[simp] theorem State.setMode_mode (m : Mode) : (s.setMode m).mode = m := rfl
@[simp] theorem State.setMode_phase (m : Mode) : (s.setMode m).phase = s.phase := rfl
@[simp] theorem State.setMode_inputs (m : Mode) : (s.setMode m).inputs = s.inputs := rfl
@[simp] theorem State.setMode_inputDraws (m : Mode) : (s.setMode m).inputDraws = s.inputDraws := rfl
@[simp] theorem State.setMode_randoms (m : Mode) : (s.setMode m).randoms = s.randoms := rfl
@[simp] theorem State.setMode_randomDraws (m : Mode) : (s.setMode m).randomDraws = s.randomDraws := rfl
@[simp] theorem State.setMode_renders (m : Mode) : (s.setMode m).renders = s.renders := rfl

/-! `complete` -/

@[simp] theorem State.complete_v : (s.complete).v = s.v := rfl
@[simp] theorem State.complete_i : (s.complete).i = s.i := rfl
@[simp] theorem State.complete_pc : (s.complete).pc = s.pc := rfl
@[simp] theorem State.complete_sp : (s.complete).sp = s.sp := rfl
@[simp] theorem State.complete_stack : (s.complete).stack = s.stack := rfl
@[simp] theorem State.complete_mem : (s.complete).mem = s.mem := rfl
@[simp] theorem State.complete_fb : (s.complete).fb = s.fb := rfl
@[simp] theorem State.complete_dt : (s.complete).dt = s.dt := rfl
@[simp] theorem State.complete_st : (s.complete).st = s.st := rfl
@[simp] theorem State.complete_k : (s.complete).k = s.k := rfl
@[simp] theorem State.complete_dirty : (s.complete).dirty = s.dirty := rfl
@[simp] theorem State.complete_mode : (s.complete).mode = .running := rfl
@[simp] theorem State.complete_phase : (s.complete).phase = s.phase := rfl
@[simp] theorem State.complete_inputs : (s.complete).inputs = s.inputs := rfl
@[simp] theorem State.complete_inputDraws : (s.complete).inputDraws = s.inputDraws := rfl
@[simp] theorem State.complete_randoms : (s.complete).randoms = s.randoms := rfl
@[simp] theorem State.complete_randomDraws : (s.complete).randomDraws = s.randomDraws := rfl
@[simp] theorem State.complete_renders : (s.complete).renders = s.renders := rfl

/-! `raise` -/

@[simp] theorem State.raise_v (c : Cause) (n : Nat) : (s.raise c n).v = s.v := rfl
@[simp] theorem State.raise_i (c : Cause) (n : Nat) : (s.raise c n).i = s.i := rfl
@[simp] theorem State.raise_pc (c : Cause) (n : Nat) : (s.raise c n).pc = s.pc - 2 := rfl
@[simp] theorem State.raise_sp (c : Cause) (n : Nat) : (s.raise c n).sp = s.sp := rfl
@[simp] theorem State.raise_stack (c : Cause) (n : Nat) : (s.raise c n).stack = s.stack := rfl
@[simp] theorem State.raise_mem (c : Cause) (n : Nat) : (s.raise c n).mem = s.mem := rfl
@[simp] theorem State.raise_fb (c : Cause) (n : Nat) : (s.raise c n).fb = s.fb := rfl
@[simp] theorem State.raise_dt (c : Cause) (n : Nat) : (s.raise c n).dt = s.dt := rfl
@[simp] theorem State.raise_st (c : Cause) (n : Nat) : (s.raise c n).st = s.st := rfl
@[simp] theorem State.raise_k (c : Cause) (n : Nat) : (s.raise c n).k = s.k := rfl
@[simp] theorem State.raise_dirty (c : Cause) (n : Nat) : (s.raise c n).dirty = s.dirty := rfl
@[simp] theorem State.raise_mode (c : Cause) (n : Nat) : (s.raise c n).mode = .halted c n := rfl
@[simp] theorem State.raise_phase (c : Cause) (n : Nat) : (s.raise c n).phase = s.phase := rfl
@[simp] theorem State.raise_inputs (c : Cause) (n : Nat) : (s.raise c n).inputs = s.inputs := rfl
@[simp] theorem State.raise_inputDraws (c : Cause) (n : Nat) : (s.raise c n).inputDraws = s.inputDraws := rfl
@[simp] theorem State.raise_randoms (c : Cause) (n : Nat) : (s.raise c n).randoms = s.randoms := rfl
@[simp] theorem State.raise_randomDraws (c : Cause) (n : Nat) : (s.raise c n).randomDraws = s.randomDraws := rfl
@[simp] theorem State.raise_renders (c : Cause) (n : Nat) : (s.raise c n).renders = s.renders := rfl

/-! `takeSample` -/

@[simp] theorem State.takeSample_v : (s.takeSample).v = s.v := rfl
@[simp] theorem State.takeSample_i : (s.takeSample).i = s.i := rfl
@[simp] theorem State.takeSample_pc : (s.takeSample).pc = s.pc := rfl
@[simp] theorem State.takeSample_sp : (s.takeSample).sp = s.sp := rfl
@[simp] theorem State.takeSample_stack : (s.takeSample).stack = s.stack := rfl
@[simp] theorem State.takeSample_mem : (s.takeSample).mem = s.mem := rfl
@[simp] theorem State.takeSample_fb : (s.takeSample).fb = s.fb := rfl
@[simp] theorem State.takeSample_dt : (s.takeSample).dt = s.dt := rfl
@[simp] theorem State.takeSample_st : (s.takeSample).st = s.st := rfl
@[simp] theorem State.takeSample_k : (s.takeSample).k = s.nextSample.keys := rfl
@[simp] theorem State.takeSample_dirty : (s.takeSample).dirty = s.dirty := rfl
@[simp] theorem State.takeSample_mode : (s.takeSample).mode = s.mode := rfl
@[simp] theorem State.takeSample_phase : (s.takeSample).phase = s.phase := rfl
@[simp] theorem State.takeSample_inputs : (s.takeSample).inputs = s.inputs.tail := rfl
@[simp] theorem State.takeSample_inputDraws : (s.takeSample).inputDraws = s.inputDraws + 1 := rfl
@[simp] theorem State.takeSample_randoms : (s.takeSample).randoms = s.randoms := rfl
@[simp] theorem State.takeSample_randomDraws : (s.takeSample).randomDraws = s.randomDraws := rfl
@[simp] theorem State.takeSample_renders : (s.takeSample).renders = s.renders := rfl

/-! `takeRandom` -/

@[simp] theorem State.takeRandom_v : (s.takeRandom).v = s.v := rfl
@[simp] theorem State.takeRandom_i : (s.takeRandom).i = s.i := rfl
@[simp] theorem State.takeRandom_pc : (s.takeRandom).pc = s.pc := rfl
@[simp] theorem State.takeRandom_sp : (s.takeRandom).sp = s.sp := rfl
@[simp] theorem State.takeRandom_stack : (s.takeRandom).stack = s.stack := rfl
@[simp] theorem State.takeRandom_mem : (s.takeRandom).mem = s.mem := rfl
@[simp] theorem State.takeRandom_fb : (s.takeRandom).fb = s.fb := rfl
@[simp] theorem State.takeRandom_dt : (s.takeRandom).dt = s.dt := rfl
@[simp] theorem State.takeRandom_st : (s.takeRandom).st = s.st := rfl
@[simp] theorem State.takeRandom_k : (s.takeRandom).k = s.k := rfl
@[simp] theorem State.takeRandom_dirty : (s.takeRandom).dirty = s.dirty := rfl
@[simp] theorem State.takeRandom_mode : (s.takeRandom).mode = s.mode := rfl
@[simp] theorem State.takeRandom_phase : (s.takeRandom).phase = s.phase := rfl
@[simp] theorem State.takeRandom_inputs : (s.takeRandom).inputs = s.inputs := rfl
@[simp] theorem State.takeRandom_inputDraws : (s.takeRandom).inputDraws = s.inputDraws := rfl
@[simp] theorem State.takeRandom_randoms : (s.takeRandom).randoms = s.randoms.tail := rfl
@[simp] theorem State.takeRandom_randomDraws : (s.takeRandom).randomDraws = s.randomDraws + 1 := rfl
@[simp] theorem State.takeRandom_renders : (s.takeRandom).renders = s.renders := rfl

/-! `advance` -/

@[simp] theorem State.advance_v : (s.advance).v = s.v := rfl
@[simp] theorem State.advance_i : (s.advance).i = s.i := rfl
@[simp] theorem State.advance_pc : (s.advance).pc = s.pc + 2 := rfl
@[simp] theorem State.advance_sp : (s.advance).sp = s.sp := rfl
@[simp] theorem State.advance_stack : (s.advance).stack = s.stack := rfl
@[simp] theorem State.advance_mem : (s.advance).mem = s.mem := rfl
@[simp] theorem State.advance_fb : (s.advance).fb = s.fb := rfl
@[simp] theorem State.advance_dt : (s.advance).dt = s.dt := rfl
@[simp] theorem State.advance_st : (s.advance).st = s.st := rfl
@[simp] theorem State.advance_k : (s.advance).k = s.k := rfl
@[simp] theorem State.advance_dirty : (s.advance).dirty = s.dirty := rfl
@[simp] theorem State.advance_mode : (s.advance).mode = s.mode := rfl
@[simp] theorem State.advance_phase : (s.advance).phase = s.phase := rfl
@[simp] theorem State.advance_inputs : (s.advance).inputs = s.inputs := rfl
@[simp] theorem State.advance_inputDraws : (s.advance).inputDraws = s.inputDraws := rfl
@[simp] theorem State.advance_randoms : (s.advance).randoms = s.randoms := rfl
@[simp] theorem State.advance_randomDraws : (s.advance).randomDraws = s.randomDraws := rfl
@[simp] theorem State.advance_renders : (s.advance).renders = s.renders := rfl

/-! `tick` -/

@[simp] theorem State.tick_v : (s.tick).v = s.v := rfl
@[simp] theorem State.tick_i : (s.tick).i = s.i := rfl
@[simp] theorem State.tick_pc : (s.tick).pc = s.pc := rfl
@[simp] theorem State.tick_sp : (s.tick).sp = s.sp := rfl
@[simp] theorem State.tick_stack : (s.tick).stack = s.stack := rfl
@[simp] theorem State.tick_mem : (s.tick).mem = s.mem := rfl
@[simp] theorem State.tick_fb : (s.tick).fb = s.fb := rfl
@[simp] theorem State.tick_dt : (s.tick).dt = decTimer s.dt := rfl
@[simp] theorem State.tick_st : (s.tick).st = decTimer s.st := rfl
@[simp] theorem State.tick_k : (s.tick).k = s.k := rfl
@[simp] theorem State.tick_dirty : (s.tick).dirty = s.dirty := rfl
@[simp] theorem State.tick_mode : (s.tick).mode = s.mode := rfl
@[simp] theorem State.tick_phase : (s.tick).phase = s.phase := rfl
@[simp] theorem State.tick_inputs : (s.tick).inputs = s.inputs := rfl
@[simp] theorem State.tick_inputDraws : (s.tick).inputDraws = s.inputDraws := rfl
@[simp] theorem State.tick_randoms : (s.tick).randoms = s.randoms := rfl
@[simp] theorem State.tick_randomDraws : (s.tick).randomDraws = s.randomDraws := rfl
@[simp] theorem State.tick_renders : (s.tick).renders = s.renders := rfl

/-! `skipIf` -/

@[simp] theorem State.skipIf_v (c : Bool) : (s.skipIf c).v = s.v := rfl
@[simp] theorem State.skipIf_i (c : Bool) : (s.skipIf c).i = s.i := rfl
@[simp] theorem State.skipIf_pc (c : Bool) : (s.skipIf c).pc = if c then s.pc + 2 else s.pc := rfl
@[simp] theorem State.skipIf_sp (c : Bool) : (s.skipIf c).sp = s.sp := rfl
@[simp] theorem State.skipIf_stack (c : Bool) : (s.skipIf c).stack = s.stack := rfl
@[simp] theorem State.skipIf_mem (c : Bool) : (s.skipIf c).mem = s.mem := rfl
@[simp] theorem State.skipIf_fb (c : Bool) : (s.skipIf c).fb = s.fb := rfl
@[simp] theorem State.skipIf_dt (c : Bool) : (s.skipIf c).dt = s.dt := rfl
@[simp] theorem State.skipIf_st (c : Bool) : (s.skipIf c).st = s.st := rfl
@[simp] theorem State.skipIf_k (c : Bool) : (s.skipIf c).k = s.k := rfl
@[simp] theorem State.skipIf_dirty (c : Bool) : (s.skipIf c).dirty = s.dirty := rfl
@[simp] theorem State.skipIf_mode (c : Bool) : (s.skipIf c).mode = s.mode := rfl
@[simp] theorem State.skipIf_phase (c : Bool) : (s.skipIf c).phase = s.phase := rfl
@[simp] theorem State.skipIf_inputs (c : Bool) : (s.skipIf c).inputs = s.inputs := rfl
@[simp] theorem State.skipIf_inputDraws (c : Bool) : (s.skipIf c).inputDraws = s.inputDraws := rfl
@[simp] theorem State.skipIf_randoms (c : Bool) : (s.skipIf c).randoms = s.randoms := rfl
@[simp] theorem State.skipIf_randomDraws (c : Bool) : (s.skipIf c).randomDraws = s.randomDraws := rfl
@[simp] theorem State.skipIf_renders (c : Bool) : (s.skipIf c).renders = s.renders := rfl

/-! `setFlag` -/

@[simp] theorem State.setFlag_v (c : Bool) : (s.setFlag c).v = s.v.set 15 (flagByte c) := rfl
@[simp] theorem State.setFlag_i (c : Bool) : (s.setFlag c).i = s.i := rfl
@[simp] theorem State.setFlag_pc (c : Bool) : (s.setFlag c).pc = s.pc := rfl
@[simp] theorem State.setFlag_sp (c : Bool) : (s.setFlag c).sp = s.sp := rfl
@[simp] theorem State.setFlag_stack (c : Bool) : (s.setFlag c).stack = s.stack := rfl
@[simp] theorem State.setFlag_mem (c : Bool) : (s.setFlag c).mem = s.mem := rfl
@[simp] theorem State.setFlag_fb (c : Bool) : (s.setFlag c).fb = s.fb := rfl
@[simp] theorem State.setFlag_dt (c : Bool) : (s.setFlag c).dt = s.dt := rfl
@[simp] theorem State.setFlag_st (c : Bool) : (s.setFlag c).st = s.st := rfl
@[simp] theorem State.setFlag_k (c : Bool) : (s.setFlag c).k = s.k := rfl
@[simp] theorem State.setFlag_dirty (c : Bool) : (s.setFlag c).dirty = s.dirty := rfl
@[simp] theorem State.setFlag_mode (c : Bool) : (s.setFlag c).mode = s.mode := rfl
@[simp] theorem State.setFlag_phase (c : Bool) : (s.setFlag c).phase = s.phase := rfl
@[simp] theorem State.setFlag_inputs (c : Bool) : (s.setFlag c).inputs = s.inputs := rfl
@[simp] theorem State.setFlag_inputDraws (c : Bool) : (s.setFlag c).inputDraws = s.inputDraws := rfl
@[simp] theorem State.setFlag_randoms (c : Bool) : (s.setFlag c).randoms = s.randoms := rfl
@[simp] theorem State.setFlag_randomDraws (c : Bool) : (s.setFlag c).randomDraws = s.randomDraws := rfl
@[simp] theorem State.setFlag_renders (c : Bool) : (s.setFlag c).renders = s.renders := rfl

/-! Reading a register after a write -/

@[simp] theorem State.getV_setV_same (x : Reg) (b : Byte) : (s.setV x b).getV x = b := by
  simp [State.getV]

theorem State.getV_setV_other (x y : Reg) (b : Byte) (h : x ≠ y) : (s.setV x b).getV y = s.getV y := by
  have : x.val ≠ y.val := fun e => h (Fin.ext e)
  simp [State.getV, this]

end Sys2Proof.Machine
end

