-- ==== Sys2Proof/Laws/Ops.lean ====
section
/-! SUPPORT. One lemma per shared operation: everything it can do, to be cited where it is called. -/

namespace Sys2Proof.Machine

/-! ### The checked access (R54) -/

theorem accessFails_iff (a n : Nat) : accessFails a n = true ↔ 0 < n ∧ 0x1000 < a + n := by
  rw [accessFails, Bool.and_eq_true, decide_eq_true_eq, decide_eq_true_eq, Config.memSize]

theorem State.access_of_fits (s done : State) (a n : Nat) (h : n = 0 ∨ a + n ≤ 0x1000) :
    s.access a n done = done.complete := by
  have : accessFails a n = false := by
    rw [← Bool.not_eq_true, accessFails_iff]; omega
  simp [State.access, this]

theorem State.access_of_fails (s done : State) (a n : Nat) (h : 0 < n ∧ 0x1000 < a + n) :
    s.access a n done = s.raise .memoryOutOfBounds (max a 0x1000) := by
  have : accessFails a n = true := (accessFails_iff a n).mpr h
  simp [State.access, this, faultAddress, Config.memSize]

/-- The access either fails, changing only `PC` and `mode`, or is in bounds and has its effect. -/
theorem State.access_cases (s done : State) (a n : Nat) :
    ((0 < n ∧ 0x1000 < a + n) ∧ s.access a n done = s.raise .memoryOutOfBounds (max a 0x1000)) ∨
    ((n = 0 ∨ a + n ≤ 0x1000) ∧ s.access a n done = done.complete) := by
  by_cases h : 0 < n ∧ 0x1000 < a + n
  · exact .inl ⟨h, s.access_of_fails done a n h⟩
  · exact .inr ⟨by omega, s.access_of_fits done a n (by omega)⟩

/-! ### The end of a step (R96 to R98) -/

theorem decTimer_toNat (b : Byte) : (decTimer b).toNat = b.toNat - 1 := by
  unfold decTimer
  split
  · have := b.isLt
    rw [BitVec.toNat_sub]; simp; omega
  · omega

theorem State.endStep_of_terminal (s : State) (h : s.mode.terminal = true) : s.endStep = s := by
  simp [State.endStep, h]

theorem State.render_eq (s : State) : s.render =
    { s with renders := if s.dirty then s.renders ++ [s.fb] else s.renders, dirty := false } := by
  unfold State.render
  split
  · rfl
  · next h => cases s; simp_all

theorem State.count_eq (s : State) : s.count =
    { s with
      phase := s.phase + 1
      dt := if s.phase.val = 19 then decTimer s.dt else s.dt
      st := if s.phase.val = 19 then decTimer s.st else s.st } := by
  unfold State.count
  split
  · next h =>
    have h19 : s.phase.val = 19 := by omega
    have : s.phase + 1 = 0 := by
      apply Fin.ext; simp [Fin.val_add, h19]
    simp [State.tick, h19, this]
  · next h =>
    have h19 : ¬ s.phase.val = 19 := by omega
    simp [h19]

/-- A completed step ends with its render, its count and, after the 20th, the tick. -/
theorem State.endStep_of_completed (s : State) (h : s.mode.terminal = false) : s.endStep =
    { s with
      renders := if s.dirty then s.renders ++ [s.fb] else s.renders
      dirty := false
      phase := s.phase + 1
      dt := if s.phase.val = 19 then decTimer s.dt else s.dt
      st := if s.phase.val = 19 then decTimer s.st else s.st } := by
  simp [State.endStep, h, State.count_eq, State.render_eq]

/-! ### Keys (R150) -/

theorem leastKeyFrom_spec (k : BitVec 16) (a n : Nat) :
    (leastKeyFrom k a n = none ∧ ∀ j, a ≤ j → j < a + n → k.getLsbD j = false) ∨
    (∃ j, leastKeyFrom k a n = some j ∧ a ≤ j ∧ j < a + n ∧ k.getLsbD j = true ∧
      ∀ l, a ≤ l → l < j → k.getLsbD l = false) := by
  induction n generalizing a with
  | zero => exact .inl ⟨rfl, fun j h1 h2 => by omega⟩
  | succ n ih =>
    by_cases h : k.getLsbD a = true
    · exact .inr ⟨a, by simp [leastKeyFrom, h], le_refl a, by omega, h, fun l h1 h2 => by omega⟩
    · simp only [Bool.not_eq_true] at h
      rcases ih (a + 1) with ⟨h1, h2⟩ | ⟨j, h1, h2, h3, h4, h5⟩
      · refine .inl ⟨by simp [leastKeyFrom, h, h1], fun j ha hb => ?_⟩
        rcases Nat.eq_or_lt_of_le ha with rfl | hlt
        · exact h
        · exact h2 j (by omega) (by omega)
      · refine .inr ⟨j, by simp [leastKeyFrom, h, h1], by omega, by omega, h4, fun l ha hb => ?_⟩
        rcases Nat.eq_or_lt_of_le ha with rfl | hlt
        · exact h
        · exact h5 l (by omega) hb

/-! ### The registers a load leaves (R161) -/

theorem State.regsLoaded_get (s : State) (x : Reg) (j : Nat) (h : j < 16) :
    (s.regsLoaded x)[j] = if j ≤ x.val then s.mem.read (s.i.toNat + j) else s.v[j] := by
  simp only [State.regsLoaded, Vector.getElem_ofFn, State.effAddr]

theorem State.regsUpTo_length (s : State) (x : Reg) : (s.regsUpTo x).length = x.val + 1 := by
  have := x.isLt
  simp [State.regsUpTo]

theorem State.regsUpTo_get (s : State) (x : Reg) (j : Nat) (h : j < (s.regsUpTo x).length) :
    (s.regsUpTo x)[j] = s.v[j]'(by rw [s.regsUpTo_length] at h; have := x.isLt; omega) := by
  simp [State.regsUpTo]

end Sys2Proof.Machine
end

