-- ==== Sys2Proof/Laws/PerInstr.lean ====
section
/-! SUPPORT. Per instruction: its encoding carries the fixed bits of its row of the opcode map (R75, R81). -/

namespace Sys2Proof.Laws

/-- Mask and match of an instruction's row in the table of R75. -/
def fixedBits : Instr → Word × Word
  | .cls => (0xFFFF, 0x00E0)
  | .ret => (0xFFFF, 0x00EE)
  | .jp _ => (0xF000, 0x1000)
  | .call _ => (0xF000, 0x2000)
  | .seVxNn _ _ => (0xF000, 0x3000)
  | .sneVxNn _ _ => (0xF000, 0x4000)
  | .seVxVy _ _ => (0xF00F, 0x5000)
  | .ldVxNn _ _ => (0xF000, 0x6000)
  | .addVxNn _ _ => (0xF000, 0x7000)
  | .ldVxVy _ _ => (0xF00F, 0x8000)
  | .orVxVy _ _ => (0xF00F, 0x8001)
  | .andVxVy _ _ => (0xF00F, 0x8002)
  | .xorVxVy _ _ => (0xF00F, 0x8003)
  | .addVxVy _ _ => (0xF00F, 0x8004)
  | .sub _ _ => (0xF00F, 0x8005)
  | .shr _ _ => (0xF00F, 0x8006)
  | .subn _ _ => (0xF00F, 0x8007)
  | .shl _ _ => (0xF00F, 0x800E)
  | .sneVxVy _ _ => (0xF00F, 0x9000)
  | .ldINnn _ => (0xF000, 0xA000)
  | .jpV0 _ => (0xF000, 0xB000)
  | .rnd _ _ => (0xF000, 0xC000)
  | .drw _ _ _ => (0xF000, 0xD000)
  | .skp _ => (0xF0FF, 0xE09E)
  | .sknp _ => (0xF0FF, 0xE0A1)
  | .ldVxDt _ => (0xF0FF, 0xF007)
  | .ldVxK _ => (0xF0FF, 0xF00A)
  | .ldDtVx _ => (0xF0FF, 0xF015)
  | .ldStVx _ => (0xF0FF, 0xF018)
  | .addIVx _ => (0xF0FF, 0xF01E)
  | .ldFVx _ => (0xF0FF, 0xF029)
  | .ldBVx _ => (0xF0FF, 0xF033)
  | .ldMemVx _ => (0xF0FF, 0xF055)
  | .ldVxMem _ => (0xF0FF, 0xF065)

/-- Fields kept by a mask whose nibbles are all ones or all zeros. -/
theorem append_and_append {m n : Nat} (a c : BitVec m) (b d : BitVec n) :
    (a ++ b) &&& (c ++ d) = (a &&& c) ++ (b &&& d) := by
  ext j hj
  simp only [BitVec.getElem_and, BitVec.getElem_append]
  split <;> rfl

theorem formatA_mask (f : BitVec 4) (nnn : BitVec 12) : formatA f nnn &&& 0xF000 = f ++ 0#12 := by
  have h : (0xF000 : Word) = BitVec.allOnes 4 ++ 0#12 := by decide
  rw [formatA, h, append_and_append, BitVec.and_allOnes, BitVec.and_zero]

theorem formatXB_mask (f : BitVec 4) (x : Reg) (nn : Byte) : formatXB f x nn &&& 0xF000 = f ++ 0#4 ++ 0#8 := by
  have h : (0xF000 : Word) = BitVec.allOnes 4 ++ 0#4 ++ 0#8 := by decide
  rw [formatXB, h, append_and_append, append_and_append, BitVec.and_allOnes, BitVec.and_zero, BitVec.and_zero]

theorem formatXY_mask (f : BitVec 4) (x y : Reg) (n : BitVec 4) :
    formatXY f x y n &&& 0xF00F = f ++ 0#4 ++ 0#4 ++ n := by
  have h : (0xF00F : Word) = BitVec.allOnes 4 ++ 0#4 ++ 0#4 ++ BitVec.allOnes 4 := by decide
  rw [formatXY, h, append_and_append, append_and_append, append_and_append, BitVec.and_allOnes, BitVec.and_allOnes,
    BitVec.and_zero, BitVec.and_zero]

theorem formatXYN_mask (f : BitVec 4) (x y : Reg) (n : BitVec 4) :
    formatXY f x y n &&& 0xF000 = f ++ 0#4 ++ 0#4 ++ 0#4 := by
  have h : (0xF000 : Word) = BitVec.allOnes 4 ++ 0#4 ++ 0#4 ++ 0#4 := by decide
  rw [formatXY, h, append_and_append, append_and_append, append_and_append, BitVec.and_allOnes, BitVec.and_zero,
    BitVec.and_zero, BitVec.and_zero]

theorem formatXF_mask (f : BitVec 4) (x : Reg) (fn : Byte) : formatXF f x fn &&& 0xF0FF = f ++ 0#4 ++ fn := by
  have h : (0xF0FF : Word) = BitVec.allOnes 4 ++ 0#4 ++ BitVec.allOnes 8 := by decide
  rw [formatXF, h, append_and_append, append_and_append, BitVec.and_allOnes, BitVec.and_allOnes, BitVec.and_zero]

/-- The encoding of `i` has the fixed bits of `i`'s row. -/
def SelectsRow.Statement (i : Instr) : Prop := encode i &&& (fixedBits i).1 = (fixedBits i).2

theorem SelectsRow.cls : SelectsRow.Statement .cls := by unfold SelectsRow.Statement; decide
theorem SelectsRow.ret : SelectsRow.Statement .ret := by unfold SelectsRow.Statement; decide
theorem SelectsRow.jp (nnn : BitVec 12) : SelectsRow.Statement (.jp nnn) := formatA_mask _ nnn
theorem SelectsRow.call (nnn : BitVec 12) : SelectsRow.Statement (.call nnn) := formatA_mask _ nnn
theorem SelectsRow.seVxNn (x : Reg) (nn : Byte) : SelectsRow.Statement (.seVxNn x nn) := formatXB_mask _ x nn
theorem SelectsRow.sneVxNn (x : Reg) (nn : Byte) : SelectsRow.Statement (.sneVxNn x nn) := formatXB_mask _ x nn
theorem SelectsRow.seVxVy (x y : Reg) : SelectsRow.Statement (.seVxVy x y) := formatXY_mask _ x y _
theorem SelectsRow.ldVxNn (x : Reg) (nn : Byte) : SelectsRow.Statement (.ldVxNn x nn) := formatXB_mask _ x nn
theorem SelectsRow.addVxNn (x : Reg) (nn : Byte) : SelectsRow.Statement (.addVxNn x nn) := formatXB_mask _ x nn
theorem SelectsRow.ldVxVy (x y : Reg) : SelectsRow.Statement (.ldVxVy x y) := formatXY_mask _ x y _
theorem SelectsRow.orVxVy (x y : Reg) : SelectsRow.Statement (.orVxVy x y) := formatXY_mask _ x y _
theorem SelectsRow.andVxVy (x y : Reg) : SelectsRow.Statement (.andVxVy x y) := formatXY_mask _ x y _
theorem SelectsRow.xorVxVy (x y : Reg) : SelectsRow.Statement (.xorVxVy x y) := formatXY_mask _ x y _
theorem SelectsRow.addVxVy (x y : Reg) : SelectsRow.Statement (.addVxVy x y) := formatXY_mask _ x y _
theorem SelectsRow.sub (x y : Reg) : SelectsRow.Statement (.sub x y) := formatXY_mask _ x y _
theorem SelectsRow.shr (x y : Reg) : SelectsRow.Statement (.shr x y) := formatXY_mask _ x y _
theorem SelectsRow.subn (x y : Reg) : SelectsRow.Statement (.subn x y) := formatXY_mask _ x y _
theorem SelectsRow.shl (x y : Reg) : SelectsRow.Statement (.shl x y) := formatXY_mask _ x y _
theorem SelectsRow.sneVxVy (x y : Reg) : SelectsRow.Statement (.sneVxVy x y) := formatXY_mask _ x y _
theorem SelectsRow.ldINnn (nnn : BitVec 12) : SelectsRow.Statement (.ldINnn nnn) := formatA_mask _ nnn
theorem SelectsRow.jpV0 (nnn : BitVec 12) : SelectsRow.Statement (.jpV0 nnn) := formatA_mask _ nnn
theorem SelectsRow.rnd (x : Reg) (nn : Byte) : SelectsRow.Statement (.rnd x nn) := formatXB_mask _ x nn
theorem SelectsRow.drw (x y : Reg) (n : Nat) : SelectsRow.Statement (.drw x y n) := formatXYN_mask _ x y _
theorem SelectsRow.skp (x : Reg) : SelectsRow.Statement (.skp x) := formatXF_mask _ x _
theorem SelectsRow.sknp (x : Reg) : SelectsRow.Statement (.sknp x) := formatXF_mask _ x _
theorem SelectsRow.ldVxDt (x : Reg) : SelectsRow.Statement (.ldVxDt x) := formatXF_mask _ x _
theorem SelectsRow.ldVxK (x : Reg) : SelectsRow.Statement (.ldVxK x) := formatXF_mask _ x _
theorem SelectsRow.ldDtVx (x : Reg) : SelectsRow.Statement (.ldDtVx x) := formatXF_mask _ x _
theorem SelectsRow.ldStVx (x : Reg) : SelectsRow.Statement (.ldStVx x) := formatXF_mask _ x _
theorem SelectsRow.addIVx (x : Reg) : SelectsRow.Statement (.addIVx x) := formatXF_mask _ x _
theorem SelectsRow.ldFVx (x : Reg) : SelectsRow.Statement (.ldFVx x) := formatXF_mask _ x _
theorem SelectsRow.ldBVx (x : Reg) : SelectsRow.Statement (.ldBVx x) := formatXF_mask _ x _
theorem SelectsRow.ldMemVx (x : Reg) : SelectsRow.Statement (.ldMemVx x) := formatXF_mask _ x _
theorem SelectsRow.ldVxMem (x : Reg) : SelectsRow.Statement (.ldVxMem x) := formatXF_mask _ x _

end Sys2Proof.Laws
end

