-- ==== Sys2Proof/Laws/Step.lean ====
section
/-! SUPPORT. Inversion: what an answered instruction and an answered step can be, once, for the proofs that go over all of them. -/

namespace Sys2Proof.Machine

/-! ### Registers after a write -/

theorem State.setV_v_other (s : State) (x r : Reg) (b : Byte) (h : r ≠ x) : (s.setV x b).v[r] = s.v[r] :=
  s.getV_setV_other x r b h.symm

theorem State.setFlag_v_other (s : State) (r : Reg) (c : Bool) (h : r ≠ 15) : (s.setFlag c).v[r] = s.v[r] :=
  s.setV_v_other 15 r _ h

/-! ### Instructions -/

/-- `00EE`, when it answers a next state, underflows or pops (R106). -/
theorem execRet_cases (s t : State) (h : execRet s = .next t) :
    (s.sp = 0 ∧ t = s.raise .stackUnderflow s.instrAddr.toNat) ∨
    (∃ j : Fin 16, s.sp.toNat = j.val + 1 ∧ t = ((s.setSp (s.sp - 1)).setPc s.stack[j]).complete) := by
  unfold execRet at h
  split at h
  · next h0 => cases h; exact .inl ⟨h0, rfl⟩
  · next h0 =>
    split at h
    · next tg ht =>
      cases h
      have h1 : s.sp.toNat ≠ 0 := fun h => h0 (BitVec.eq_of_toNat_eq h)
      have hl : s.sp.toNat - 1 < 16 := by
        by_contra hh; rw [Vector.getElem?_eq_none (by omega)] at ht; cases ht
      refine .inr ⟨⟨s.sp.toNat - 1, hl⟩, by simp only; omega, ?_⟩
      rw [Vector.getElem?_eq_getElem hl] at ht
      cases ht; rfl
    · cases h

/-- `FX0A` waits exactly when no key is pressed (R150). -/
theorem execLdVxK_cases (x : Reg) (s t : State) (h : execLdVxK x s = .next t) :
    (s.k = 0 ∧ t = (s.setPc s.instrAddr).setMode .awaitingKey) ∨
    (∃ key, s.k ≠ 0 ∧ s.leastKey = some key ∧ key < 16 ∧ t = (s.setV x (BitVec.ofNat 8 key)).complete) := by
  have hk : s.leastKey = leastKeyFrom s.k 0 16 := rfl
  rcases leastKeyFrom_spec s.k 0 16 with ⟨e, e'⟩ | ⟨j, e, _, hj, e', _⟩ <;>
    simp only [execLdVxK, hk, e, Host.Outcome.next.injEq] at h
  · refine .inl ⟨BitVec.eq_of_getLsbD_eq (fun j hj => ?_), h.symm⟩
    rw [e' j (by omega) (by omega)]; simp
  · refine .inr ⟨j, fun h0 => ?_, hk.trans e, by omega, h.symm⟩
    rw [h0] at e'; simp at e'

/-- An answered instruction completes, waits for a key, or raises, and a raise changes `PC` and `mode` only (R95, R173). -/
theorem exec_cases (i : Instr) (s t : State) (h : exec i s = .next t) :
    t.mode = .running ∨ (∃ x, i = .ldVxK x ∧ s.k = 0 ∧ t = (s.setPc s.instrAddr).setMode .awaitingKey) ∨
      ∃ c n, t = s.raise c n := by
  have access (n : Nat) (done : State) (ht : s.access s.i.toNat n done = t) :
      t.mode = .running ∨ (∃ x, i = .ldVxK x ∧ s.k = 0 ∧ t = (s.setPc s.instrAddr).setMode .awaitingKey) ∨
        ∃ c n, t = s.raise c n := by
    rcases s.access_cases done s.i.toNat n with ⟨_, e⟩ | ⟨_, e⟩ <;> rw [e] at ht
    · exact .inr (.inr ⟨_, _, ht.symm⟩)
    · exact .inl (by rw [← ht]; rfl)
  cases i
  case ret =>
    rcases execRet_cases s t h with ⟨_, rfl⟩ | ⟨j, _, rfl⟩
    · exact .inr (.inr ⟨_, _, rfl⟩)
    · exact .inl rfl
  case ldVxK x =>
    rcases execLdVxK_cases x s t h with ⟨h0, h1⟩ | ⟨key, _, _, _, rfl⟩
    · exact .inr (.inl ⟨x, rfl, h0, h1⟩)
    · exact .inl rfl
  all_goals simp only [exec, execCall, execSkp, execSknp, execDrw, execLdBVx, execLdMemVx, execLdVxMem, State.keySkip,
    Host.Outcome.next.injEq] at h
  case drw | ldBVx | ldMemVx | ldVxMem => exact access _ _ h
  case call | skp | sknp =>
    split at h <;> subst h
    · exact .inr (.inr ⟨_, _, rfl⟩)
    · exact .inl rfl
  all_goals
    cases h
    exact .inl rfl

/-! ### The end of a step leaves these alone -/

theorem State.endStep_cases (s : State) : (s.mode.terminal = true ∧ s.endStep = s) ∨
    (s.mode.terminal = false ∧ s.endStep =
      { s with
        renders := if s.dirty then s.renders ++ [s.fb] else s.renders
        dirty := false
        phase := s.phase + 1
        dt := if s.phase.val = 19 then decTimer s.dt else s.dt
        st := if s.phase.val = 19 then decTimer s.st else s.st }) := by
  cases h : s.mode.terminal
  · exact .inr ⟨rfl, s.endStep_of_completed h⟩
  · exact .inl ⟨rfl, s.endStep_of_terminal h⟩

theorem State.endStep_v (s : State) : s.endStep.v = s.v := by rcases s.endStep_cases with ⟨_, h⟩ | ⟨_, h⟩ <;> rw [h]
theorem State.endStep_i (s : State) : s.endStep.i = s.i := by rcases s.endStep_cases with ⟨_, h⟩ | ⟨_, h⟩ <;> rw [h]
theorem State.endStep_pc (s : State) : s.endStep.pc = s.pc := by rcases s.endStep_cases with ⟨_, h⟩ | ⟨_, h⟩ <;> rw [h]
theorem State.endStep_sp (s : State) : s.endStep.sp = s.sp := by rcases s.endStep_cases with ⟨_, h⟩ | ⟨_, h⟩ <;> rw [h]
theorem State.endStep_stack (s : State) : s.endStep.stack = s.stack := by
  rcases s.endStep_cases with ⟨_, h⟩ | ⟨_, h⟩ <;> rw [h]
theorem State.endStep_mem (s : State) : s.endStep.mem = s.mem := by rcases s.endStep_cases with ⟨_, h⟩ | ⟨_, h⟩ <;> rw [h]
theorem State.endStep_fb (s : State) : s.endStep.fb = s.fb := by rcases s.endStep_cases with ⟨_, h⟩ | ⟨_, h⟩ <;> rw [h]
theorem State.endStep_mode (s : State) : s.endStep.mode = s.mode := by
  rcases s.endStep_cases with ⟨_, h⟩ | ⟨_, h⟩ <;> rw [h]

/-! ### Steps -/

/-- Every answered step is one of five: none in a terminal mode, the stop on `quit_in`, a failed fetch, an illegal word, an
instruction (R90). -/
theorem step_cases (s t : State) (h : step s = .next t) :
    (s.mode.terminal = true ∧ t = s) ∨
    (s.mode.terminal = false ∧ s.nextSample.quit = true ∧ t = s.setMode .stopped) ∨
    ((s.mode.terminal = false ∧ s.nextSample.quit = false) ∧
      ((0xFFE < s.pc.toNat ∧ t = s.takeSample.setMode (.halted .memoryOutOfBounds s.pc.toNat)) ∨
       (s.pc.toNat ≤ 0xFFE ∧ (∃ e, decodeWord (fetchWord s.mem s.pc) = .error e) ∧
          t = s.takeSample.advance.raise .invalidOpcode (fetchWord s.mem s.pc).toNat) ∨
       (s.pc.toNat ≤ 0xFFE ∧ ∃ i u, decodeWord (fetchWord s.mem s.pc) = .ok i ∧
          exec i s.takeSample.advance = .next u ∧ t = u.endStep))) := by
  unfold step at h
  split at h
  · next h1 => cases h; exact .inl ⟨h1, rfl⟩
  · next h1 =>
    simp only [Bool.not_eq_true] at h1
    split at h
    · next h2 => cases h; exact .inr (.inl ⟨h1, h2, rfl⟩)
    · next h2 =>
      simp only [Bool.not_eq_true] at h2
      refine .inr (.inr ⟨⟨h1, h2⟩, ?_⟩)
      unfold fetchAndRun at h
      split at h
      · next h3 =>
        replace h3 : s.pc.toNat ≤ 0xFFE := of_decide_eq_true h3
        unfold runWord at h
        simp only [State.takeSample_mem, State.takeSample_pc] at h
        split at h
        · next i hd =>
          unfold finishStep at h
          split at h
          · next u hu => cases h; exact .inr (.inr ⟨h3, i, u, hd, hu, rfl⟩)
          · cases h
          · cases h
        · next e hd => cases h; exact .inr (.inl ⟨h3, ⟨e, hd⟩, rfl⟩)
      · next h3 =>
        replace h3 : ¬ s.pc.toNat ≤ 0xFFE := fun hh => h3 (decide_eq_true hh)
        cases h; exact .inl ⟨by omega, rfl⟩

end Sys2Proof.Machine
end

