-- ==== Sys2Proof/Tests/Slice0.lean ====
section
/-! SUPPORT. Tests: the well-formedness check, one word per row of the opcode map, the spec's vectors (95_test_vectors.md; the id
of each is cited), and for each obligation with hypotheses a witness that meets them. -/

namespace Sys2Proof.Tests

open Sys2Proof.Machine

-- One theorem after another: each is a kernel evaluation, and side by side they would ask for many threads at once.
set_option Elab.async false

/-! ### Helpers -/

/-- The reset state with an all-zero key sample scheduled for the next step. -/
def fresh : State := { State.reset with inputs := [⟨0, false⟩] }

/-- `fresh` with the key sample `keys`. -/
def freshKeys (keys : BitVec 16) : State := { State.reset with inputs := [⟨keys, false⟩] }

/-- `s` with registers written one by one. -/
def regs (l : List (Reg × Byte)) (s : State) : State := l.foldl (fun s p => s.setV p.1 p.2) s

/-- `s` with bytes placed in memory. -/
def bytes (a : Nat) (bs : List Byte) (s : State) : State := s.setMem (s.mem.writeBytes a bs)

/-- The answer is a next state with the property. -/
def nextIs (r : Result) (p : State → Bool) : Bool :=
  match r with
  | .next t => p t
  | .fault _ => false
  | .refused _ => false

/-- The next state answered, or `d` when there is none. -/
def nextOr (d : State) (r : Result) : State :=
  match r with
  | .next t => t
  | .fault _ => d
  | .refused _ => d

/-- The step from `s` with the word `w` placed where it fetches reaches a state with the property. -/
def runs (w : Nat) (s : State) (p : State → Bool) : Bool := nextIs (step (s.withFetchWord 16 w)) p

/-- The framebuffer with exactly the listed cells set. -/
def cells (l : List Nat) : Frame := l.foldl (fun f j => f ||| BitVec.twoPow 2048 j) 0

/-! ### Well-formedness (R73) -/

/-- The one check: a row count of 16 has no field to stand in. -/
theorem test_wellFormed_refuses_row_count_16 : (Instr.drw 0 0 16).wellFormed = false := by decide

theorem test_wellFormed_accepts_row_count_15 : (Instr.drw 15 15 15).wellFormed = true := by decide

/-! ### Decoding: a word of every row of R75, written from its pattern -/

theorem test_decode_control_and_skips :
    decodeWord 0x00E0 = .ok .cls ∧ decodeWord 0x00EE = .ok .ret ∧ decodeWord 0x1ABC = .ok (.jp 0xABC) ∧
    decodeWord 0x2ABC = .ok (.call 0xABC) ∧ decodeWord 0xB300 = .ok (.jpV0 0x300) ∧
    decodeWord 0x332A = .ok (.seVxNn 3 0x2A) ∧ decodeWord 0x4A42 = .ok (.sneVxNn 0xA 0x42) ∧
    decodeWord 0x5AB0 = .ok (.seVxVy 0xA 0xB) ∧ decodeWord 0x9AB0 = .ok (.sneVxVy 0xA 0xB) := by decide +kernel

theorem test_decode_alu :
    decodeWord 0x6AFF = .ok (.ldVxNn 0xA 0xFF) ∧ decodeWord 0x7A01 = .ok (.addVxNn 0xA 0x01) ∧
    decodeWord 0x8120 = .ok (.ldVxVy 1 2) ∧ decodeWord 0x8121 = .ok (.orVxVy 1 2) ∧
    decodeWord 0x8122 = .ok (.andVxVy 1 2) ∧ decodeWord 0x8123 = .ok (.xorVxVy 1 2) ∧
    decodeWord 0x8124 = .ok (.addVxVy 1 2) ∧ decodeWord 0x8125 = .ok (.sub 1 2) ∧
    decodeWord 0x8126 = .ok (.shr 1 2) ∧ decodeWord 0x8127 = .ok (.subn 1 2) ∧
    decodeWord 0x812E = .ok (.shl 1 2) ∧ decodeWord 0xC30F = .ok (.rnd 3 0x0F) := by decide +kernel

theorem test_decode_index_display_keys_timers_memory :
    decodeWord 0xA123 = .ok (.ldINnn 0x123) ∧ decodeWord 0xD12F = .ok (.drw 1 2 15) ∧
    decodeWord 0xE59E = .ok (.skp 5) ∧ decodeWord 0xE5A1 = .ok (.sknp 5) ∧
    decodeWord 0xF207 = .ok (.ldVxDt 2) ∧ decodeWord 0xF30A = .ok (.ldVxK 3) ∧
    decodeWord 0xF215 = .ok (.ldDtVx 2) ∧ decodeWord 0xF218 = .ok (.ldStVx 2) ∧
    decodeWord 0xF31E = .ok (.addIVx 3) ∧ decodeWord 0xF329 = .ok (.ldFVx 3) ∧
    decodeWord 0xF433 = .ok (.ldBVx 4) ∧ decodeWord 0xFF55 = .ok (.ldMemVx 15) ∧
    decodeWord 0xF265 = .ok (.ldVxMem 2) := by decide +kernel

/-- The illegal words of 95_test_vectors.md, every one refused by name. -/
theorem test_decode_refuses_illegal :
    [0x0000, 0x0123, 0x00FF, 0x00E1, 0x01E0, 0x5AB1, 0x8AB8, 0x8ABF, 0x9AB1, 0xE09F, 0xE000, 0xF000, 0xF075, 0xF085,
      0xFFFF].all (fun w => decide (decodeWord w = .error (.invalidOpcode w))) = true := by decide +kernel

/-- Big-endian, one instruction taken off the front; a lone byte is refused (R55, R70). -/
theorem test_decode_bytes :
    decode [0xA2, 0x0A, 0x60] = .ok (.ldINnn 0x20A, [0x60]) ∧ decode [0xA2] = .error .truncated ∧
    decodeTableWord 16 0xA20A = some (.ldINnn 0x20A) ∧ decodeTableWord 16 0x0000 = none := by decide +kernel

/-! ### Control transfer -/

/-- V-C1, V-C2. -/
theorem test_jp : runs 0x1ABC fresh (fun t => t.pc == 0xABC) = true ∧ runs 0x1200 fresh (fun t => t.pc == 0x200) = true := by
  decide +kernel

/-- V-C6: the fifteenth call. -/
theorem test_call : runs 0x2ABC (fresh.setSp 14)
    (fun t => t.stack[14] == 0x202 && t.sp == 15 && t.pc == 0xABC && t.mode == .running) = true := by decide +kernel

/-- V-C7: the sixteenth call halts, and nothing else changes. -/
theorem test_call_overflow : runs 0x2ABC (fresh.setSp 15)
    (fun t => t.stack[15] == 0 && t.sp == 15 && t.pc == 0x200 && t.mode == .halted .stackOverflow 0x200
      && t.phase == 0) = true := by decide +kernel

/-- V-C9: the popped entry is not cleared. -/
theorem test_ret : runs 0x00EE ((fresh.setSp 1).setStack 0 0x456)
    (fun t => t.sp == 0 && t.pc == 0x456 && t.stack[0] == 0x456) = true := by decide +kernel

/-- V-C8. -/
theorem test_ret_underflow : runs 0x00EE fresh
    (fun t => t.pc == 0x200 && t.mode == .halted .stackUnderflow 0x200) = true := by decide +kernel

/-- V-C10, V-C11: the sum is not reduced. -/
theorem test_jpV0 : runs 0xB300 (regs [(0, 0xFF)] fresh) (fun t => t.pc == 0x3FF) = true ∧
    runs 0xBFFF (regs [(0, 0xFF)] fresh) (fun t => t.pc == 0x10FE && t.mode == .running) = true := by decide +kernel

/-! ### Skips -/

/-- V-S1, V-S2. -/
theorem test_seVxNn : runs 0x3A42 (regs [(0xA, 0x42)] fresh) (fun t => t.pc == 0x204) = true ∧
    runs 0x3A42 (regs [(0xA, 0x43)] fresh) (fun t => t.pc == 0x202) = true := by decide +kernel

/-- V-S3, V-S4. -/
theorem test_sneVxNn : runs 0x4A42 (regs [(0xA, 0x42)] fresh) (fun t => t.pc == 0x202) = true ∧
    runs 0x4A42 (regs [(0xA, 0x43)] fresh) (fun t => t.pc == 0x204) = true := by decide +kernel

/-- V-S5, V-S6. -/
theorem test_seVxVy : runs 0x5AB0 (regs [(0xA, 7), (0xB, 7)] fresh) (fun t => t.pc == 0x204) = true ∧
    runs 0x5AB0 (regs [(0xA, 7), (0xB, 8)] fresh) (fun t => t.pc == 0x202) = true := by decide +kernel

/-- V-S8, V-S9. -/
theorem test_sneVxVy : runs 0x9AB0 (regs [(0xA, 7), (0xB, 7)] fresh) (fun t => t.pc == 0x202) = true ∧
    runs 0x9AB0 (regs [(0xA, 7), (0xB, 8)] fresh) (fun t => t.pc == 0x204) = true := by decide +kernel

/-- V-S11: a skip off the end of memory does not fault in its own step. -/
theorem test_skip_past_the_end : runs 0x3000 (fresh.setPc 0xFFC) (fun t => t.pc == 0x1000 && t.mode == .running) = true := by
  decide +kernel

/-! ### Load, arithmetic, logic, shifts, random -/

/-- V-A1. -/
theorem test_ldVxNn : runs 0x6AFF fresh (fun t => t.v[0xA] == 0xFF && t.v[0] == 0 && t.pc == 0x202) = true := by
  decide +kernel

/-- V-A2, V-A5: no carry flag, and `VF` is an ordinary destination. -/
theorem test_addVxNn : runs 0x7A01 (regs [(0xA, 0xFF)] fresh) (fun t => t.v[0xA] == 0 && t.v[15] == 0) = true ∧
    runs 0x7F01 (regs [(15, 0xFF)] fresh) (fun t => t.v[15] == 0) = true := by decide +kernel

/-- V-A6. -/
theorem test_ldVxVy : runs 0x8120 (regs [(1, 1), (2, 0xAB)] fresh) (fun t => t.v[1] == 0xAB && t.v[2] == 0xAB) = true := by
  decide +kernel

/-- V-A7. -/
theorem test_or : runs 0x8121 (regs [(1, 0xF0), (2, 0x0F), (15, 7)] fresh) (fun t => t.v[1] == 0xFF && t.v[15] == 7) = true := by
  decide +kernel

/-- V-A8. -/
theorem test_and : runs 0x8122 (regs [(1, 0xF0), (2, 0x3C), (15, 7)] fresh) (fun t => t.v[1] == 0x30 && t.v[15] == 7) = true := by
  decide +kernel

/-- V-A9. -/
theorem test_xor : runs 0x8123 (regs [(1, 0xF0), (2, 0x3C), (15, 7)] fresh) (fun t => t.v[1] == 0xCC && t.v[15] == 7) = true := by
  decide +kernel

/-- V-A10, V-A14: 255 is not above 255. -/
theorem test_addVxVy : runs 0x8124 (regs [(1, 0xFF), (2, 1)] fresh) (fun t => t.v[1] == 0 && t.v[15] == 1) = true ∧
    runs 0x8124 (regs [(1, 0xFF), (15, 7)] fresh) (fun t => t.v[1] == 0xFF && t.v[15] == 0) = true := by decide +kernel

/-- V-F1, V-F4, V-F6: the flag register as `Y`, as `X`, as both. -/
theorem test_addVxVy_flag_operand :
    runs 0x81F4 (regs [(1, 0xF0), (15, 0x20)] fresh) (fun t => t.v[15] == 1 && t.v[1] == 0xF1) = true ∧
    runs 0x8F14 (regs [(15, 0xF0), (1, 0x20)] fresh) (fun t => t.v[15] == 0x21 && t.v[1] == 0x20) = true ∧
    runs 0x8FF4 (regs [(15, 0x80)] fresh) (fun t => t.v[15] == 2) = true := by decide +kernel

/-- V-A16, V-A17: the comparison is strict. -/
theorem test_sub : runs 0x8125 (regs [(1, 1), (2, 2), (15, 7)] fresh) (fun t => t.v[1] == 0xFF && t.v[15] == 0) = true ∧
    runs 0x8125 (regs [(1, 5), (2, 5), (15, 7)] fresh) (fun t => t.v[1] == 0 && t.v[15] == 0) = true ∧
    runs 0x8125 (regs [(1, 5), (2, 3)] fresh) (fun t => t.v[1] == 2 && t.v[15] == 1) = true := by decide +kernel

/-- V-F8, V-F10, V-F12. -/
theorem test_sub_flag_operand :
    runs 0x81F5 (regs [(1, 5), (15, 3)] fresh) (fun t => t.v[15] == 1 && t.v[1] == 4) = true ∧
    runs 0x8F15 (regs [(15, 5), (1, 3)] fresh) (fun t => t.v[15] == 0xFE) = true ∧
    runs 0x8FF5 (regs [(15, 9)] fresh) (fun t => t.v[15] == 0) = true := by decide +kernel

/-- V-A25: `Y` is ignored. -/
theorem test_shr : runs 0x8126 (regs [(1, 5), (2, 0xFF)] fresh)
    (fun t => t.v[1] == 2 && t.v[15] == 1 && t.v[2] == 0xFF) = true := by decide +kernel

/-- V-F18. -/
theorem test_shr_flag_operand : runs 0x8F06 (regs [(15, 0xFF)] fresh) (fun t => t.v[15] == 0) = true := by decide +kernel

/-- V-A21, V-A23. -/
theorem test_subn : runs 0x8127 (regs [(1, 2), (2, 5)] fresh) (fun t => t.v[1] == 3 && t.v[15] == 1) = true ∧
    runs 0x8127 (regs [(1, 5), (2, 2), (15, 7)] fresh) (fun t => t.v[1] == 0xFD && t.v[15] == 0) = true := by decide +kernel

/-- V-F13, V-F15, V-F17. -/
theorem test_subn_flag_operand :
    runs 0x81F7 (regs [(1, 3), (15, 5)] fresh) (fun t => t.v[15] == 1 && t.v[1] == 0xFE) = true ∧
    runs 0x8F17 (regs [(15, 3), (1, 5)] fresh) (fun t => t.v[15] == 4) = true ∧
    runs 0x8FF7 (regs [(15, 9)] fresh) (fun t => t.v[15] == 0) = true := by decide +kernel

/-- V-A28, V-A29: `Y` is ignored. -/
theorem test_shl : runs 0x812E (regs [(1, 0x81)] fresh) (fun t => t.v[1] == 2 && t.v[15] == 1) = true ∧
    runs 0x812E (regs [(1, 0x40), (2, 0xFF), (15, 7)] fresh)
      (fun t => t.v[1] == 0x80 && t.v[15] == 0 && t.v[2] == 0xFF) = true := by decide +kernel

/-- V-F19, V-F20. -/
theorem test_shl_flag_operand : runs 0x8F0E (regs [(15, 0xFF)] fresh) (fun t => t.v[15] == 2) = true ∧
    runs 0x8F0E (regs [(15, 0x7F)] fresh) (fun t => t.v[15] == 0) = true := by decide +kernel

/-- V-A31: one byte is used up, `VF` untouched. -/
theorem test_rnd : runs 0xC30F (regs [(3, 0x55), (15, 7)] { fresh with randoms := [0xA7, 0x11] })
    (fun t => t.v[3] == 7 && t.v[15] == 7 && t.randoms == [0x11]) = true := by decide +kernel

/-- R132: with no byte scheduled the instruction runs all the same, on one free byte, and the other registers stay. -/
theorem test_rnd_free_byte : runs 0xC300 (regs [(3, 0x55)] fresh) (fun t => t.pc == 0x202 && t.randomDraws == 1 && t.v[4] == 0) = true := by
  decide +kernel

/-! ### The address register -/

/-- V-I1. -/
theorem test_ldINnn : runs 0xA123 fresh (fun t => t.i == 0x123) = true := by decide +kernel

/-- V-I2, V-I4. -/
theorem test_addIVx : runs 0xF31E (regs [(3, 0x10)] (fresh.setI 0xFF8)) (fun t => t.i == 0x1008 && t.v[15] == 0) = true ∧
    runs 0xF31E (regs [(3, 0xFF)] (fresh.setI 0xFFFF)) (fun t => t.i == 0xFE) = true := by decide +kernel

/-- V-I6, V-I8: the operand is not masked. -/
theorem test_ldFVx : runs 0xF329 (regs [(3, 0x0F)] fresh) (fun t => t.i == 0x4B) = true ∧
    runs 0xF329 (regs [(3, 0xFF)] fresh) (fun t => t.i == 0x4FB) = true := by decide +kernel

/-! ### Display -/

/-- V-D15. -/
theorem test_cls : runs 0x00E0 (regs [(15, 5)] { fresh with fb := BitVec.allOnes 2048 })
    (fun t => t.fb == 0 && t.v[15] == 5 && t.renders == [0] && !t.dirty) = true := by decide +kernel

/-- V-D3: the sprite spills over both edges. -/
theorem test_drw_spill : runs 0xD125 (regs [(1, 62), (2, 30), (15, 7)] (fresh.setI 0x23))
    (fun t => t.fb == cells [1, 64, 127, 191, 1982, 1983, 1984, 1985] && t.v[15] == 0 && t.renders == [t.fb]) = true := by
  decide +kernel

/-- V-D8 (second draw): one cell cleared, one set, and a collision; V-D14: the old `VF` is the column; V-D11. -/
theorem test_drw_corners :
    runs 0xD341 (regs [(3, 1)] ((bytes 0x300 [0xC0] (fresh.setI 0x300)).setScreen (cells [0, 1])))
      (fun t => t.fb == cells [0, 2] && t.v[15] == 1) = true ∧
    runs 0xDF11 (regs [(15, 3), (1, 2)] fresh) (fun t => t.fb == cells [131, 132, 133, 134] && t.v[15] == 0) = true ∧
    runs 0xD122 (regs [(15, 7)] (fresh.setI 0xFFF)) (fun t => t.mode == .halted .memoryOutOfBounds 0x1000 && t.v[15] == 7
      && t.fb == 0 && t.renders == [] && t.pc == 0x200) = true := by decide +kernel

/-! ### Keypad -/

/-- V-K1, V-K3, V-K8. -/
theorem test_skp : runs 0xE59E (regs [(5, 0x0A)] (freshKeys 0x0400)) (fun t => t.pc == 0x204) = true ∧
    runs 0xE59E (regs [(5, 0x0A)] (freshKeys 0xFBFF)) (fun t => t.pc == 0x202) = true ∧
    runs 0xE59E (regs [(5, 0x10)] (freshKeys 0xFFFF))
      (fun t => t.mode == .halted .keyOutOfRange 0x10 && t.pc == 0x200 && t.k == 0xFFFF) = true := by decide +kernel

/-- V-K4, V-K5, V-K9. -/
theorem test_sknp : runs 0xE5A1 (regs [(5, 0x0A)] fresh) (fun t => t.pc == 0x204) = true ∧
    runs 0xE5A1 (regs [(5, 0x0A)] (freshKeys 0x0400)) (fun t => t.pc == 0x202) = true ∧
    runs 0xE5A1 (regs [(5, 0xFF)] fresh) (fun t => t.mode == .halted .keyOutOfRange 0xFF) = true := by decide +kernel

/-- V-K10: the waiting step counts, and the tick happens. -/
theorem test_ldVxK_waits : runs 0xF30A { fresh with dt := 1, phase := 19 }
    (fun t => t.pc == 0x200 && t.v[3] == 0 && t.mode == .awaitingKey && t.phase == 0 && t.dt == 0) = true := by
  decide +kernel

/-- V-K11, V-K12: the least key. -/
theorem test_ldVxK : runs 0xF30A ((freshKeys 0x0090).setMode .awaitingKey)
      (fun t => t.v[3] == 4 && t.pc == 0x202 && t.mode == .running && t.phase == 1) = true ∧
    runs 0xF30A (freshKeys 0x8000) (fun t => t.v[3] == 15) = true := by decide +kernel

/-! ### Timers -/

/-- V-T1. -/
theorem test_ldVxDt : runs 0xF207 (fresh.setDt 0x3C) (fun t => t.v[2] == 0x3C && t.dt == 0x3C) = true := by decide +kernel

/-- V-T2, V-T3: loaded, then ticked in the same step. -/
theorem test_ldDtVx : runs 0xF215 (regs [(2, 5)] fresh) (fun t => t.dt == 5 && t.phase == 1) = true ∧
    runs 0xF215 (regs [(2, 5)] { fresh with phase := 19 }) (fun t => t.dt == 4 && t.phase == 0) = true := by
  decide +kernel

/-- V-T4. -/
theorem test_ldStVx : runs 0xF218 (regs [(2, 0x1E)] fresh) (fun t => t.st == 0x1E && t.dt == 0) = true := by decide +kernel

/-! ### Memory transfer -/

/-- V-M1, V-M4. -/
theorem test_ldBVx : runs 0xF433 (regs [(4, 157)] (fresh.setI 0x300)) (fun t => t.mem.readBytes 0x300 3 == [1, 5, 7]) = true ∧
    runs 0xF433 (regs [(4, 157)] (fresh.setI 0xFFE)) (fun t => t.mode == .halted .memoryOutOfBounds 0x1000
      && t.mem.readBytes 0xFFE 2 == [0, 0]) = true := by decide +kernel

/-- V-M5, V-M7. -/
theorem test_ldMemVx :
    runs 0xF255 (regs [(0, 0x11), (1, 0x22), (2, 0x33), (3, 0x44)] (fresh.setI 0x400))
      (fun t => t.mem.readBytes 0x400 4 == [0x11, 0x22, 0x33, 0] && t.i == 0x400) = true ∧
    runs 0xFF55 (regs [(0, 1)] (fresh.setI 0xFF1))
      (fun t => t.mode == .halted .memoryOutOfBounds 0x1000 && t.mem.read 0xFF1 == 0) = true := by decide +kernel

/-- V-M9, V-M10: the default font, and V-M11. -/
theorem test_ldVxMem :
    runs 0xF265 (regs [(3, 0x99)] (bytes 0x400 [0x11, 0x22, 0x33, 0x44] (fresh.setI 0x400)))
      (fun t => t.v.toList.take 4 == [0x11, 0x22, 0x33, 0x99] && t.i == 0x400) = true ∧
    runs 0xF465 fresh (fun t => t.v.toList.take 5 == [0xF0, 0x90, 0x90, 0x90, 0xF0]) = true ∧
    runs 0xF165 (regs [(0, 7), (1, 8)] (fresh.setI 0xFFF))
      (fun t => t.mode == .halted .memoryOutOfBounds 0x1000 && t.v[0] == 7 && t.v[1] == 8) = true := by decide +kernel

/-! ### Step and reset -/

/-- V-Y1: nothing is sampled or executed. -/
theorem test_quit : runs 0x6005 { State.reset with inputs := [⟨0xFFFF, true⟩] }
    (fun t => t.mode == .stopped && t.pc == 0x200 && t.v[0] == 0 && t.phase == 0 && t.k == 0) = true := by decide +kernel

/-- V-Y2: the empty program. -/
theorem test_empty_program : nextIs (step State.reset) (fun t => t.mode == .halted .invalidOpcode 0 && t.pc == 0x200) = true := by
  decide +kernel

/-- V-C13, V-C14: the last instruction slot executes, one byte is not enough. -/
theorem test_last_slot : runs 0x6007 (fresh.setPc 0xFFE) (fun t => t.v[0] == 7 && t.pc == 0x1000 && t.mode == .running) = true ∧
    nextIs (step (fresh.setPc 0xFFF)) (fun t => t.mode == .halted .memoryOutOfBounds 0xFFF && t.pc == 0xFFF) = true := by
  decide +kernel

/-- The codes of R171. -/
theorem test_cause_codes :
    [Cause.invalidOpcode, .memoryOutOfBounds, .stackOverflow, .stackUnderflow, .keyOutOfRange, .programTooLarge].map Cause.code
      = [1, 2, 3, 4, 5, 6] := by decide

/-- V-Y5 and R195: `State.reset` is the reset with the default font and the empty program. -/
theorem test_reset_is_applyReset : State.applyReset Config.fontTable [] State.reset = State.reset := by decide +kernel

/-! ### Witnesses: for each obligation with hypotheses, a state and operands that meet them, each clause at its boundary -/

/-- The state `exec i s` answers. -/
def after (i : Instr) (s : State) : State := nextOr s (exec i s)

theorem witness_EncodeThenDecode :
    (Instr.drw 15 15 15).wellFormed = true ∧ (Instr.ldMemVx 15).wellFormed = true := by decide

theorem witness_DecodeThenEncode : decodeWord 0x8F1E = .ok (.shl 15 1) ∧ decodeWord 0xDABF = .ok (.drw 10 11 15) := by
  decide +kernel

/-- Both sides of the boundaries of R76, family by family. -/
theorem witness_IllegalWordsExactly :
    [0x00DF, 0x00E1, 0x00ED, 0x00EF, 0x0FFF, 0x5FF1, 0x8008, 0x800D, 0x800F, 0x9001, 0xE09D, 0xE0A0, 0xF006, 0xF066].all
      (fun w => decide (decodeWord w = .error (.invalidOpcode w))) = true ∧
    [0x00E0, 0x00EE, 0x1000, 0x5FF0, 0x8007, 0x800E, 0x9000, 0xE09E, 0xEFA1, 0xF007, 0xFF65].all
      (fun w => decide (decodeWord w ≠ .error (.invalidOpcode w))) = true := by decide +kernel

theorem witness_StepRunsDecodedInstruction :
    ((fresh.setPc 0xFFE).withFetchWord 16 0x6007).takesStep = true ∧
    ((fresh.setPc 0xFFE).withFetchWord 16 0x6007).pc.toNat ≤ 0xFFE ∧
    decodeWord ((fresh.setPc 0xFFE).withFetchWord 16 0x6007).opcodeAtPc = .ok (.ldVxNn 0 7) := by decide +kernel

theorem witness_IllegalWordHalts :
    (fresh.setPc 0xFFE).takesStep = true ∧ (fresh.setPc 0xFFE).pc.toNat ≤ 0xFFE ∧
    decodeWord (fresh.setPc 0xFFE).opcodeAtPc = .error (.invalidOpcode 0) := by decide +kernel

theorem witness_FetchBeyondMemoryHalts :
    (fresh.setPc 0xFFF).takesStep = true ∧ 0xFFE < (fresh.setPc 0xFFF).pc.toNat := by decide

theorem witness_TerminalModesFrozen :
    (fresh.setMode .stopped).mode = .stopped ∧
    (fresh.setMode (.halted .stackOverflow 0x200)).mode = .halted .stackOverflow 0x200 := by decide

theorem witness_QuitStops :
    State.reset.mode = .running ∧ (State.reset.setMode .awaitingKey).mode = .awaitingKey ∧
    { State.reset with inputs := [⟨0, true⟩] }.nextSample.quit = true := by decide

/-- A raise; a dirty completion of the 20th step with timers 0 and 1; one of the 19th. -/
theorem witness_EndOfStep :
    (fresh.setMode (.halted .invalidOpcode 0)).mode.terminal = true ∧
    { fresh with phase := 19, dirty := true, st := 1 }.mode.terminal = false ∧
    ({ fresh with phase := 18 } : State).phase ≠ 19 := by decide

theorem witness_HaltIsPrecise :
    State.reset.mode.terminal = false ∧ step State.reset = .next (nextOr State.reset (step State.reset)) ∧
    (nextOr State.reset (step State.reset)).mode = .halted .invalidOpcode 0 := ⟨rfl, rfl, by decide +kernel⟩

/-- One instruction that raises, one that does not. -/
theorem witness_RaisesExactlyAsTabulated :
    exec .ret fresh = .next (after .ret fresh) ∧ (after .ret fresh).mode = .halted .stackUnderflow 0x1FE ∧
    exec .cls fresh = .next (after .cls fresh) ∧ raisesAs fresh .cls = none := ⟨rfl, by decide +kernel, rfl, rfl⟩

theorem witness_StepAlwaysAnswers : (fresh.setSp 16).sp.toNat ≤ 16 := by decide

/-- A state at the top of every range. -/
def brim : State := { fresh with sp := 15, pc := 0x10FE, stack := Vector.replicate 16 0x1000 }

theorem witness_StepKeepsRanges : brim.Inv ∧ nextIs (step brim) (fun _ => true) = true := by decide +kernel

theorem witness_StepKeepsMemoryCanonical :
    (bytes 0xFFE [1, 2] fresh).mem.wf = true ∧ nextIs (step (bytes 0xFFE [1, 2] fresh)) (fun _ => true) = true := by
  decide +kernel

/-- The longest program accepted and the shortest refused (V-Y3, V-Y4). -/
theorem witness_ResetComponents :
    (List.replicate 3583 (0 : Byte)).length < 3584 ∧ 3584 ≤ (List.replicate 3584 (0 : Byte)).length := by
  simp only [List.length_replicate]; decide

/-- The edges of the reset image: last font byte, the gap, the program, what follows it. -/
theorem witness_ResetMemoryImage :
    [0x4F, 0x50, 0x1FF, 0x200, 0x201, 0x202].map (fun a => (fresh.applyReset Config.fontTable [0x12, 0x34]).mem.read a)
      = [0x80, 0, 0, 0x12, 0x34, 0] := by decide +kernel

theorem witness_CallPushesOrOverflows :
    (fresh.setSp 0).sp.toNat = (0 : Fin 15).val ∧ (fresh.setSp 14).sp.toNat = (14 : Fin 15).val ∧
    15 ≤ (fresh.setSp 15).sp.toNat := by decide

theorem witness_ReturnPopsOrUnderflows :
    (fresh.setSp 1).sp.toNat = (0 : Fin 16).val + 1 ∧ (fresh.setSp 16).sp.toNat = (15 : Fin 16).val + 1 ∧
    (fresh.setSp 0).sp = 0 := by decide

theorem witness_ReturnFaultsBeyondTheStack : 16 < (fresh.setSp 17).sp.toNat := by decide

theorem witness_CallThenReturn :
    (fresh.setSp 14).sp.toNat < 15 ∧ exec (.call 0xABC) (fresh.setSp 14) = .next (after (.call 0xABC) (fresh.setSp 14)) :=
  ⟨by decide, rfl⟩

/-- The register files of the three statements about the order of writes, with the registers next to the flag register. -/
theorem witness_AddWithCarry :
    (∃ w : Vector Byte 16, w = fresh.v.set 15 (if 255 < fresh.v[(14 : Reg)].toNat + fresh.v[(0 : Reg)].toNat then 1 else 0)) ∧
    (14 : Reg) ≠ 15 ∧ (0 : Reg) ≠ 15 := ⟨⟨_, rfl⟩, by decide⟩

theorem witness_Subtractions :
    (∃ w : Vector Byte 16, w = fresh.v.set 15 (if fresh.v[(0 : Reg)].toNat < fresh.v[(14 : Reg)].toNat then 1 else 0)) ∧
    (∃ u : Vector Byte 16, u = fresh.v.set 15 (if fresh.v[(14 : Reg)].toNat < fresh.v[(0 : Reg)].toNat then 1 else 0)) ∧
    (14 : Reg) ≠ 15 := ⟨⟨_, rfl⟩, ⟨_, rfl⟩, by decide⟩

theorem witness_Shifts :
    (∃ w : Vector Byte 16, w = fresh.v.set 15 (BitVec.ofNat 8 (fresh.v[(14 : Reg)].toNat % 2))) ∧
    (∃ u : Vector Byte 16, u = fresh.v.set 15 (BitVec.ofNat 8 (fresh.v[(14 : Reg)].toNat / 128))) ∧
    (14 : Reg) ≠ 15 := ⟨⟨_, rfl⟩, ⟨_, rfl⟩, by decide⟩

theorem witness_FlagRegisterAsOperand :
    (14 : Reg) ≠ 15 ∧ (regs [(14, 0xF0), (15, 0x20)] fresh).v[(14 : Reg)].toNat = 0xF0 ∧
    (regs [(14, 0xF0), (15, 0x20)] fresh).v[15].toNat = 0x20 := by decide +kernel

theorem witness_RandomUnderMask :
    ({ fresh with randoms := [0xA7] } : State).randoms = 0xA7 :: [] ∧ fresh.randoms = [] := by decide

/-- The last byte of memory, and no rows at all. -/
theorem witness_DrawSprite :
    15 < 16 ∧ (fresh.setI 0xFF1).i.toNat + 15 - 1 ≤ 0xFFF ∧ 0 < 16 ∧ (fresh.setI 0xFFFF).i.toNat = 0xFFFF := by decide

theorem witness_DrawOutOfBounds :
    0 < 15 ∧ 0xFFF < (fresh.setI 0xFF2).i.toNat + 15 - 1 ∧ 0xFFF < (fresh.setI 0x1000).i.toNat + 1 - 1 := by decide

theorem after_drw (x y : Reg) (n : Nat) (s : State) : exec (.drw x y n) s = .next (after (.drw x y n) s) := rfl

/-- Glyph 0 drawn twice at the origin (V-D1, V-D2): the second draw is made in the state the first left. -/
theorem witness_DrawTwiceRestores :
    fresh.i.toNat + 5 - 1 ≤ 0xFFF ∧ exec (.drw 1 2 5) fresh = .next (after (.drw 1 2 5) fresh) ∧
    (after (.drw 1 2 5) fresh).mem = fresh.mem ∧ (after (.drw 1 2 5) fresh).i = fresh.i ∧
    (after (.drw 1 2 5) fresh).v[1] = fresh.v[1] ∧ (after (.drw 1 2 5) fresh).v[2] = fresh.v[2] ∧
    exec (.drw 1 2 5) (after (.drw 1 2 5) fresh) = .next (after (.drw 1 2 5) (after (.drw 1 2 5) fresh)) ∧
    addressesCell fresh.mem fresh.i.toNat fresh.v[1] fresh.v[2] 5 0 ∧ (after (.drw 1 2 5) fresh).v[15] = 0 :=
  ⟨by decide, after_drw .., by decide +kernel, by decide +kernel, by decide +kernel, by decide +kernel, after_drw ..,
    ⟨0, 0, by decide +kernel⟩, by decide +kernel⟩

/-- A step that draws and completes; a step that completes without drawing; a draw that raises; a halted machine. -/
theorem witness_OneRenderPerDraw :
    fresh.dirty = false ∧
    runs 0x00E0 fresh (fun t => !t.mode.terminal) = true ∧ Instr.cls.draws = true ∧
    runs 0x6007 fresh (fun t => !t.mode.terminal) = true ∧ (Instr.ldVxNn 0 7).draws = false ∧
    runs 0xD121 (fresh.setI 0x1000) (fun t => t.mode.terminal) = true ∧
    (fresh.setMode .stopped).takesStep = false := by decide +kernel

theorem witness_KeySkips :
    (regs [(5, 15)] fresh).v[(5 : Reg)].toNat ≤ 15 ∧ 15 < (regs [(5, 16)] fresh).v[(5 : Reg)].toNat := by decide +kernel

/-- No key, the lowest key, the highest key alone. -/
theorem witness_WaitForKey :
    fresh.k = 0 ∧ ({ fresh with k := 0xFFFF } : State).k.getLsbD (0 : Fin 16).val = true ∧
    ({ fresh with k := 0x8000 } : State).k.getLsbD (15 : Fin 16).val = true ∧
    ∀ l, l < (15 : Fin 16).val → ({ fresh with k := 0x8000 } : State).k.getLsbD l = false := by decide +kernel

theorem witness_StoreDigits :
    (fresh.setI 0xFFD).i.toNat + 2 ≤ 0xFFF ∧ 0xFFF < (fresh.setI 0xFFE).i.toNat + 2 := by decide

/-- For `StoreRegisters` and `LoadRegisters`. -/
theorem witness_register_transfers :
    (fresh.setI 0xFF0).i.toNat + (15 : Reg).val ≤ 0xFFF ∧ 0xFFF < (fresh.setI 0xFF1).i.toNat + (15 : Reg).val ∧
    (fresh.setI 0xFFF).i.toNat + (0 : Reg).val ≤ 0xFFF ∧ 0xFFF < (fresh.setI 0x1000).i.toNat + (0 : Reg).val := by decide

/-- The state of `witness_StoreSeenByFetch`: `V14`, `V15` stored at `0xFFE`, where the next fetch is. -/
def overwriting : State := regs [(14, 0x61), (15, 0x2A)] ((fresh.setI 0xFF0).setPc 0xFFE)

theorem witness_StoreSeenByFetch :
    exec (.ldMemVx 15) overwriting = .next (after (.ldMemVx 15) overwriting) ∧
    overwriting.i.toNat + (15 : Reg).val ≤ 0xFFF ∧ (15 : Reg).val = (14 : Reg).val + 1 ∧
    (after (.ldMemVx 15) overwriting).pc.toNat = overwriting.i.toNat + (14 : Reg).val :=
  ⟨rfl, by decide +kernel, by decide, by decide +kernel⟩

theorem witness_RegisterFrame :
    exec (.ldVxMem 14) fresh = .next (after (.ldVxMem 14) fresh) ∧ (Instr.ldVxMem 14).writesReg 15 = false ∧
    (Instr.addVxVy 1 2).writesReg 2 = false := ⟨rfl, by decide, by decide⟩

/-- The bytes just below and just above the stored ones. -/
theorem witness_MemoryFrame :
    exec (.ldBVx 0) (fresh.setI 0x300) = .next (after (.ldBVx 0) (fresh.setI 0x300)) ∧
    0x2FF < (fresh.setI 0x300).i.toNat ∧ (fresh.setI 0x300).i.toNat + (Instr.ldBVx 0).storedBytes ≤ 0x303 :=
  ⟨rfl, by decide, by decide⟩

/-- A jump meets every hypothesis of the clauses. -/
theorem witness_SpecialStateFrame :
    exec (.jp 0) fresh = .next (after (.jp 0) fresh) ∧ (Instr.jp 0).writesI = false ∧ (Instr.jp 0).draws = false ∧
    Instr.jp 0 ≠ .ret ∧ (∀ nnn, Instr.jp 0 ≠ .call nnn) ∧ (∀ x, Instr.jp 0 ≠ .ldDtVx x) ∧
    (∀ x, Instr.jp 0 ≠ .ldStVx x) ∧ ∀ x nn, Instr.jp 0 ≠ .rnd x nn := by
  refine ⟨rfl, rfl, rfl, ?_⟩; simp

/-- A completed step from the last slot, and one that raises. -/
theorem witness_PcAfterEveryInstruction :
    ((fresh.setPc 0xFFE).withFetchWord 16 0x6007).takesStep = true ∧ (fresh.setPc 0xFFE).pc.toNat ≤ 0xFFE ∧
    runs 0x6007 (fresh.setPc 0xFFE) (fun t => !t.mode.terminal) = true ∧
    runs 0x00EE (fresh.setPc 0xFFE) (fun t => t.mode.terminal) = true := by decide +kernel

theorem witness_SoundTimerIsUnobservable : step State.reset = .next (nextOr State.reset (step State.reset)) := rfl

theorem witness_OnlyKeypadReadsKeys :
    (Instr.rnd 0 0).readsKeys = false ∧ exec (.rnd 0 0) fresh = .next (after (.rnd 0 0) fresh) := ⟨rfl, rfl⟩

end Sys2Proof.Tests
end

/-! PROOFS. State, frames and reset (family 10_state): the effect of an instruction apart from its checks, the frame of
each effect, the step's branches as equations, and the statements settled from them. -/

namespace Sys2Proof.Machine

/-! ### What an instruction does once its checks have passed -/

/-- The change of state of an instruction that does not raise (R105 to R161), but for `mode`. `PC` is npc on entry.
`exec_of_completes` ties it to `exec`; a frame of it is a case split with no failing branch. -/
def effect (s : State) : Instr → State
  | .cls => s.setScreen 0
  | .ret => (s.setSp (s.sp - 1)).setPc ((s.stack[s.sp.toNat - 1]?).getD 0)
  | .jp nnn => s.setPc (addrOperand nnn)
  | .call nnn => ((s.setStack s.sp.toNat s.pc).setSp (s.sp + 1)).setPc (addrOperand nnn)
  | .seVxNn x nn => s.skipIf (s.getV x == nn)
  | .sneVxNn x nn => s.skipIf (s.getV x != nn)
  | .seVxVy x y => s.skipIf (s.getV x == s.getV y)
  | .ldVxNn x nn => s.setV x nn
  | .addVxNn x nn => s.setV x (s.getV x + nn)
  | .ldVxVy x y => s.setV x (s.getV y)
  | .orVxVy x y => s.setV x (s.getV x ||| s.getV y)
  | .andVxVy x y => s.setV x (s.getV x &&& s.getV y)
  | .xorVxVy x y => s.setV x (s.getV x ^^^ s.getV y)
  | .addVxVy x y => (s.setFlag (carryOut (s.getV x) (s.getV y))).setResult x y (fun a b => a + b)
  | .sub x y => (s.setFlag (strictlyGreater (s.getV x) (s.getV y))).setResult x y (fun a b => a - b)
  | .shr x _ => (s.setFlag (shiftedOutRight (s.getV x))).setResult x x (fun a _ => a >>> 1)
  | .subn x y => (s.setFlag (strictlyGreater (s.getV y) (s.getV x))).setResult x y (fun a b => b - a)
  | .shl x _ => (s.setFlag (shiftedOutLeft (s.getV x))).setResult x x (fun a _ => a <<< 1)
  | .sneVxVy x y => s.skipIf (s.getV x != s.getV y)
  | .ldINnn nnn => s.setI (addrOperand nnn)
  | .jpV0 nnn => s.setPc (s.offsetTarget nnn)
  | .rnd x nn => s.takeRandom.setV x (s.nextRandom &&& nn)
  | .drw x y n => (s.setScreen (s.drawn x y n).1).setFlag (s.drawn x y n).2
  | .skp x => s.skipIf (s.keyPressed (s.getV x).toNat)
  | .sknp x => s.skipIf (!s.keyPressed (s.getV x).toNat)
  | .ldVxDt x => s.setV x s.dt
  | .ldVxK x => (s.setPc (if s.k = 0 then s.instrAddr else s.pc)).setRegs
      (if s.k = 0 then s.v else (s.setV x (BitVec.ofNat 8 (s.leastKey.getD 0))).v)
  | .ldDtVx x => s.setDt (s.getV x)
  | .ldStVx x => s.setSt (s.getV x)
  | .addIVx x => s.setI (s.i + (s.getV x).setWidth 16)
  | .ldFVx x => s.setI (BitVec.ofNat 16 (Config.fontBase + 5 * (s.getV x).toNat))
  | .ldBVx x => s.setMem (s.mem.writeBytes s.i.toNat (decimalDigits (s.getV x)))
  | .ldMemVx x => s.setMem (s.mem.writeBytes s.i.toNat (s.regsUpTo x))
  | .ldVxMem x => s.setRegs (s.regsLoaded x)

/-- The run state an instruction that does not raise leaves: `AwaitingKey` for `FX0A` with no key pressed (R150), else
`Running` (R95). -/
def modeAfter (s : State) : Instr → Mode
  | .ldVxK _ => if s.k = 0 then .awaitingKey else .running
  | _ => .running

@[simp] theorem modeAfter_terminal (s : State) (i : Instr) : (modeAfter s i).terminal = false := by
  cases i
  case ldVxK => exact (apply_ite Mode.terminal _ _ _).trans (ite_self _)
  all_goals rfl

/-! ### What an instruction answers: it raises, completes, or is the return with no stack entry -/

theorem access_of_dataRaise_some {s : State} {n : Nat} {c : Cause} {k : Nat} (done : State)
    (h : dataRaise s n = some (c, k)) : s.access s.i.toNat n done = s.raise c k := by
  unfold dataRaise at h
  split at h
  · next hn => cases h; exact s.access_of_fails done _ _ (by omega)
  · cases h

theorem access_of_dataRaise_none {s : State} {n : Nat} (done : State) (h : dataRaise s n = none) :
    s.access s.i.toNat n done = done.complete := by
  unfold dataRaise at h
  split at h
  · cases h
  · exact s.access_of_fits done _ _ (by omega)

/-- An instruction whose check fails is the raise of R171's table and nothing else (R173). -/
theorem exec_of_raises {i : Instr} {s : State} {c : Cause} {n : Nat} (h : raisesAs s i = some (c, n)) :
    exec i s = .next (s.raise c n) := by
  cases i
  case drw | ldBVx | ldMemVx | ldVxMem => exact congrArg Host.Outcome.next (access_of_dataRaise_some _ h)
  case ret =>
    obtain ⟨hc, he⟩ := Option.ite_none_right_eq_some.mp h
    cases he
    exact if_pos hc
  case call | skp | sknp =>
    obtain ⟨hc, he⟩ := Option.ite_none_right_eq_some.mp h
    cases he
    exact congrArg Host.Outcome.next (if_pos hc)
  all_goals cases h

/-- An instruction that passes its check has its effect (R95). -/
theorem exec_of_completes {i : Instr} {s : State} (h : raisesAs s i = none) (hsp : i = .ret → s.sp.toNat ≤ 16) :
    exec i s = .next ((effect s i).setMode (modeAfter s i)) := by
  cases i
  case drw | ldBVx | ldMemVx | ldVxMem => exact congrArg Host.Outcome.next (access_of_dataRaise_none _ h)
  case call | skp | sknp =>
    simp only [raisesAs, ite_eq_right_iff, reduceCtorEq, imp_false] at h
    exact congrArg Host.Outcome.next (if_neg h)
  case ret =>
    have h0 : s.sp ≠ 0 := by simpa [raisesAs] using h
    have hl : s.sp.toNat - 1 < 16 := by have := hsp rfl; omega
    have hg : s.stack[s.sp.toNat - 1]? = some s.stack[s.sp.toNat - 1] := Vector.getElem?_eq_getElem hl
    rw [exec, execRet, if_neg h0, effect, hg]
    rfl
  case ldVxK x =>
    refine congrArg Host.Outcome.next ?_
    rcases execLdVxK_cases x s _ rfl with ⟨h0, e⟩ | ⟨key, h0, hk, -, e⟩ <;> rw [e, effect, modeAfter]
    · simp only [if_pos h0]; rfl
    · simp only [if_neg h0, hk, Option.getD_some]; rfl
  all_goals rfl

/-- An answered instruction raises as R171 tabulates it, or has its effect. -/
theorem exec_next_cases {i : Instr} {s t : State} (h : exec i s = .next t) :
    (∃ c n, raisesAs s i = some (c, n) ∧ t = s.raise c n) ∨
    (raisesAs s i = none ∧ (i = .ret → s.sp.toNat ≤ 16) ∧ t = (effect s i).setMode (modeAfter s i)) := by
  cases hr : raisesAs s i with
  | some p =>
    rw [exec_of_raises hr] at h
    cases h
    exact .inl ⟨p.1, p.2, rfl, rfl⟩
  | none =>
    have hsp : i = .ret → s.sp.toNat ≤ 16 := by
      rintro rfl
      rcases execRet_cases s t h with ⟨h0, -⟩ | ⟨j, hj, -⟩
      · simp [h0]
      · omega
    rw [exec_of_completes hr hsp] at h
    cases h
    exact .inr ⟨rfl, hsp, rfl⟩

/-- A component that no raise, no effect and no change of mode alters is as before after every answered instruction. -/
theorem exec_keeps {α : Type} (f : State → α) {i : Instr} {s t : State} (h : exec i s = .next t)
    (hraise : ∀ c n, f (s.raise c n) = f s) (heffect : f ((effect s i).setMode (modeAfter s i)) = f s) :
    f t = f s := by
  rcases exec_next_cases h with ⟨c, n, -, rfl⟩ | ⟨-, -, rfl⟩
  · exact hraise c n
  · exact heffect

/-! ### Frames: what an effect leaves unchanged (R41) -/

/-- The second statement of a flag-producing instruction is a register write, so that the rules of `setV` apply. -/
@[simp] theorem State.setResult_eq (s : State) (x y : Reg) (f : Byte → Byte → Byte) :
    s.setResult x y f = s.setV x (f (s.getV x) (s.getV y)) := rfl

theorem effect_v {i : Instr} {r : Reg} (s : State) (h : i.writesReg r = false) : (effect s i).v[r] = s.v[r] := by
  cases i
  case ldVxNn | addVxNn | ldVxVy | orVxVy | andVxVy | xorVxVy | ldVxDt | rnd =>
    exact State.setV_v_other _ _ _ _ (beq_eq_false_iff_ne.mp h)
  case ldVxK =>
    rw [effect, State.setRegs_v]
    split
    · rfl
    · exact State.setV_v_other _ _ _ _ (beq_eq_false_iff_ne.mp h)
  case addVxVy | sub | shr | subn | shl =>
    simp only [Instr.writesReg, Bool.or_eq_false_iff, beq_eq_false_iff_ne] at h
    exact (State.setV_v_other _ _ _ _ h.1).trans (State.setFlag_v_other _ _ _ h.2)
  case drw => exact State.setFlag_v_other _ _ _ (beq_eq_false_iff_ne.mp h)
  case ldVxMem x => exact (State.regsLoaded_get s x r r.isLt).trans (if_neg (of_decide_eq_false h))
  all_goals simp [effect]

theorem effect_read {i : Instr} (s : State) {a : Nat} (h : a < s.i.toNat ∨ s.i.toNat + i.storedBytes ≤ a) :
    (effect s i).mem.read a = s.mem.read a := by
  cases i
  case ldBVx => exact Memory.read_writeBytes_outside _ _ _ _ h
  case ldMemVx x => exact Memory.read_writeBytes_outside _ _ _ _ (by rwa [State.regsUpTo_length])
  all_goals simp [effect]

theorem effect_i {i : Instr} (s : State) (h : i.writesI = false) : (effect s i).i = s.i := by
  cases i
  case ldINnn | addIVx | ldFVx => cases h
  all_goals simp [effect]

theorem effect_sp {i : Instr} (s : State) (hret : i ≠ .ret) (hcall : ∀ nnn, i ≠ .call nnn) :
    (effect s i).sp = s.sp := by
  cases i
  case ret => exact absurd rfl hret
  case call nnn => exact absurd rfl (hcall nnn)
  all_goals simp [effect]

theorem effect_stack {i : Instr} (s : State) (hcall : ∀ nnn, i ≠ .call nnn) : (effect s i).stack = s.stack := by
  cases i
  case call nnn => exact absurd rfl (hcall nnn)
  all_goals simp [effect]

theorem effect_fb {i : Instr} (s : State) (h : i.draws = false) : (effect s i).fb = s.fb := by
  cases i
  case cls | drw => cases h
  all_goals simp [effect]

theorem effect_dirty (s : State) (i : Instr) : (effect s i).dirty = (i.draws || s.dirty) := by
  cases i <;> simp [effect, Instr.draws]

theorem effect_dt {i : Instr} (s : State) (h : ∀ x, i ≠ .ldDtVx x) : (effect s i).dt = s.dt := by
  cases i
  case ldDtVx x => exact absurd rfl (h x)
  all_goals simp [effect]

theorem effect_st {i : Instr} (s : State) (h : ∀ x, i ≠ .ldStVx x) : (effect s i).st = s.st := by
  cases i
  case ldStVx x => exact absurd rfl (h x)
  all_goals simp [effect]

theorem effect_randoms {i : Instr} (s : State) (h : ∀ x nn, i ≠ .rnd x nn) :
    (effect s i).randoms = s.randoms ∧ (effect s i).randomDraws = s.randomDraws := by
  cases i
  case rnd x nn => exact absurd rfl (h x nn)
  all_goals simp [effect]

@[simp] theorem effect_k (s : State) (i : Instr) : (effect s i).k = s.k := by cases i <;> simp [effect]
@[simp] theorem effect_phase (s : State) (i : Instr) : (effect s i).phase = s.phase := by cases i <;> simp [effect]
@[simp] theorem effect_inputs (s : State) (i : Instr) : (effect s i).inputs = s.inputs := by cases i <;> simp [effect]
@[simp] theorem effect_inputDraws (s : State) (i : Instr) : (effect s i).inputDraws = s.inputDraws := by
  cases i <;> simp [effect]
@[simp] theorem effect_renders (s : State) (i : Instr) : (effect s i).renders = s.renders := by
  cases i <;> simp [effect]

/-! ### Where an effect leaves `PC` (R25) -/

theorem pc_add_two_toNat {pc : Word} (h : pc.toNat ≤ 0xFFE) : (pc + 2).toNat = pc.toNat + 2 := by
  bv_omega

theorem skipIf_pc_toNat {s : State} {a : Nat} (c : Bool) (ha : a ≤ 0xFFE) (hpc : s.pc.toNat = a + 2) :
    (s.skipIf c).pc.toNat = if c then a + 4 else a + 2 := by
  cases c
  · exact hpc
  · rw [State.skipIf_pc, if_pos rfl, if_pos rfl]; bv_omega

/-- `PC` is the value the table of R25 gives the instruction fetched from `a`. -/
theorem effect_pc_toNat {s : State} {a : Nat} (i : Instr) (ha : a ≤ 0xFFE) (hpc : s.pc.toNat = a + 2) :
    (effect s i).pc.toNat = pcAfter a s i := by
  have skip (c : Bool) := skipIf_pc_toNat c ha hpc
  cases i
  case seVxNn | sneVxNn | seVxVy | sneVxVy => simp [effect, pcAfter, skip, -State.skipIf_pc]
  case skp x => exact skip (s.keyPressed (s.getV x).toNat)
  case sknp x =>
    have hk : s.k.getLsbD s.v[x].toNat = s.keyPressed (s.getV x).toNat := rfl
    rw [effect, skip, pcAfter, hk]
    cases s.keyPressed (s.getV x).toNat <;> rfl
  case jp nnn | call nnn => exact BitVec.toNat_setWidth_of_le (by decide)
  case jpV0 nnn =>
    have hsum : (s.getV 0).toNat + nnn.toNat < 2 ^ 16 := by omega
    exact (BitVec.toNat_ofNat _ _).trans (Nat.mod_eq_of_lt hsum)
  case ldVxK =>
    simp only [effect, pcAfter, State.setRegs_pc, State.setPc_pc, State.instrAddr]
    split
    · bv_omega
    · exact hpc
  case ret => rfl
  all_goals simpa [effect, pcAfter] using hpc

theorem stack_getD_toNat_le {s : State} (hst : ∀ j : Fin 16, s.stack[j].toNat ≤ 0x1000) (n : Nat) :
    ((s.stack[n]?).getD 0).toNat ≤ 0x1000 := by
  by_cases hn : n < 16
  · rw [Vector.getElem?_eq_getElem hn]
    exact hst ⟨n, hn⟩
  · rw [Vector.getElem?_eq_none (by omega)]
    decide

theorem pcAfter_le {s : State} {a : Nat} (i : Instr) (ha : a ≤ 0xFFE)
    (hst : ∀ j : Fin 16, s.stack[j].toNat ≤ 0x1000) : pcAfter a s i ≤ 0x10FE := by
  cases i
  case ret => exact (stack_getD_toNat_le hst _).trans (by decide)
  case seVxNn | sneVxNn | seVxVy | sneVxVy | skp | sknp | ldVxK => simp only [pcAfter]; split <;> omega
  all_goals simp only [pcAfter]; omega

/-- The table of R25 reads the registers, the stack and the latch, not `PC`. -/
theorem pcAfter_advance (a : Nat) (s : State) (i : Instr) : pcAfter a s.advance i = pcAfter a s i := by
  cases i <;> rfl

/-! ### What an instruction does not read -/

/-- The run state is overwritten, not read: every instruction completes, waits or raises (R95, R150, R173). -/
theorem exec_setMode (i : Instr) (s : State) (m : Mode) : exec i (s.setMode m) = exec i s := by
  cases i <;> rfl

theorem raisesAs_setSt (i : Instr) (s : State) (b : Byte) : raisesAs (s.setSt b) i = raisesAs s i := by
  cases i <;> rfl

theorem modeAfter_setSt (i : Instr) (s : State) (b : Byte) : modeAfter (s.setSt b) i = modeAfter s i := by
  cases i <;> rfl

/-- No effect depends on `ST` (R32). -/
theorem effect_setSt (i : Instr) (s : State) (b : Byte) : (effect (s.setSt b) i).setSt 0 = (effect s i).setSt 0 := by
  cases i <;> rfl

/-- From a state that differs in `ST` only, an answered instruction answers a state that differs in `ST` at most. -/
theorem exec_setSt {s t : State} {i : Instr} (b : Byte) (h : exec i s = .next t) :
    ∃ u, exec i (s.setSt b) = .next u ∧ u.setSt 0 = t.setSt 0 := by
  rcases exec_next_cases h with ⟨c, n, hr, rfl⟩ | ⟨hr, hsp, rfl⟩
  · exact ⟨_, exec_of_raises ((raisesAs_setSt i s b).trans hr), rfl⟩
  · refine ⟨_, exec_of_completes ((raisesAs_setSt i s b).trans hr) hsp, ?_⟩
    rw [modeAfter_setSt]
    exact congrArg (State.setMode · (modeAfter s i)) (effect_setSt i s b)

theorem raisesAs_setK (i : Instr) (s : State) (keys : BitVec 16) : raisesAs { s with k := keys } i = raisesAs s i := by
  cases i <;> rfl

/-- An effect other than those of the keypad does not depend on the key latch (R33). -/
theorem effect_setK {i : Instr} (s : State) (keys : BitVec 16) (h : i.readsKeys = false) :
    effect { s with k := keys } i = { effect s i with k := keys } := by
  cases i
  case skp | sknp | ldVxK => cases h
  all_goals rfl

theorem modeAfter_of_not_readsKeys {i : Instr} (s : State) (h : i.readsKeys = false) : modeAfter s i = .running := by
  cases i
  case ldVxK => cases h
  all_goals rfl

/-! ### The end of a step -/

@[simp] theorem State.endStep_dirty (s : State) : s.endStep.dirty = (s.mode.terminal && s.dirty) := by
  rcases s.endStep_cases with ⟨h, e⟩ | ⟨h, e⟩ <;> simp [e, h]

theorem State.endStep_renders (s : State) :
    s.endStep.renders = if s.mode.terminal = false ∧ s.dirty = true then s.renders ++ [s.fb] else s.renders := by
  rcases s.endStep_cases with ⟨h, e⟩ | ⟨h, e⟩ <;> simp [e, h]

theorem State.endStep_setSt (s : State) (b : Byte) : (s.setSt b).endStep.setSt 0 = s.endStep.setSt 0 := by
  cases h : s.mode.terminal
  · rw [s.endStep_of_completed h, (s.setSt b).endStep_of_completed h]; rfl
  · rw [s.endStep_of_terminal h, (s.setSt b).endStep_of_terminal h]; rfl

/-- The end of a step tells two states that differ in `ST` only apart by nothing but `ST` (R98). -/
theorem State.endStep_setSt_congr {s t : State} (h : s.setSt 0 = t.setSt 0) :
    s.endStep.setSt 0 = t.endStep.setSt 0 := by
  rw [← s.endStep_setSt 0, h, t.endStep_setSt 0]

/-! ### Steps forward: one equation per branch of the step (R90) -/

theorem State.takesStep_iff (s : State) :
    s.takesStep = true ↔ s.mode.terminal = false ∧ s.nextSample.quit = false := by
  simp [State.takesStep]

theorem step_of_terminal {s : State} (h : s.mode.terminal = true) : step s = .next s := if_pos h

theorem step_of_quit {s : State} (hm : s.mode.terminal = false) (hq : s.nextSample.quit = true) :
    step s = .next (s.setMode .stopped) := by
  simp [step, hm, hq]

theorem step_of_takesStep {s : State} (h : s.takesStep = true) : step s = fetchAndRun s.takeSample := by
  rw [State.takesStep_iff] at h
  simp [step, h]

theorem step_of_fetchFails {s : State} (hs : s.takesStep = true) (hpc : 0xFFE < s.pc.toNat) :
    step s = .next (s.takeSample.setMode (.halted .memoryOutOfBounds s.pc.toNat)) := by
  simp [step_of_takesStep hs, fetchAndRun, fetchOk, Nat.not_le.mpr hpc]

theorem step_of_fetched {s : State} (hs : s.takesStep = true) (hpc : s.pc.toNat ≤ 0xFFE) :
    step s = runWord (fetchWord s.mem s.pc) s.takeSample.advance := by
  simp [step_of_takesStep hs, fetchAndRun, fetchOk, hpc]

theorem step_of_illegal {s : State} {e : DecodeError} (hs : s.takesStep = true) (hpc : s.pc.toNat ≤ 0xFFE)
    (hd : decodeWord (fetchWord s.mem s.pc) = .error e) :
    step s = .next (s.takeSample.advance.raise .invalidOpcode (fetchWord s.mem s.pc).toNat) := by
  rw [step_of_fetched hs hpc, runWord, hd]

theorem step_of_decoded {s : State} {i : Instr} (hs : s.takesStep = true) (hpc : s.pc.toNat ≤ 0xFFE)
    (hd : decodeWord (fetchWord s.mem s.pc) = .ok i) : step s = finishStep (exec i s.takeSample.advance) := by
  rw [step_of_fetched hs hpc, runWord, hd]

theorem finishStep_next_iff {r : Result} {t : State} :
    finishStep r = .next t ↔ ∃ u, r = .next u ∧ t = u.endStep := by
  cases r <;> simp [finishStep, eq_comm]

theorem runWord_setMode (op : Word) (s : State) (m : Mode) : runWord op (s.setMode m) = runWord op s := by
  unfold runWord
  split
  · rw [exec_setMode]
  · rfl

theorem fetchAndRun_setMode (s : State) (m : Mode) : fetchAndRun (s.setMode m) = fetchAndRun s := by
  unfold fetchAndRun
  exact if_congr Iff.rfl (runWord_setMode _ s.advance m) rfl

/-- From a mode that is not terminal the step is the same (R37, R91). -/
theorem step_setMode (s : State) {m : Mode} (h : m.terminal = false) :
    step (s.setMode m) = if s.nextSample.quit then .next (s.setMode .stopped) else fetchAndRun s.takeSample :=
  (if_neg (by simp [h])).trans (if_congr Iff.rfl rfl (fetchAndRun_setMode s.takeSample m))

/-! ### The ranges (R26, R27) -/

theorem effect_sp_le {s : State} {i : Instr} (hr : raisesAs s i = none) (hsp : s.sp.toNat ≤ 15) :
    (effect s i).sp.toNat ≤ 15 := by
  cases i
  case ret =>
    have h0 : s.sp ≠ 0 := by simpa [raisesAs] using hr
    rw [effect, State.setPc_sp, State.setSp_sp]; bv_omega
  case call =>
    have : s.sp.toNat < 15 := by simpa [raisesAs] using hr
    rw [effect, State.setPc_sp, State.setSp_sp]; bv_omega
  all_goals simpa [effect] using hsp

theorem effect_stack_le {s : State} (i : Instr) (hpc : s.pc.toNat ≤ 0x1000)
    (hst : ∀ j : Fin 16, s.stack[j].toNat ≤ 0x1000) (j : Fin 16) : (effect s i).stack[j].toNat ≤ 0x1000 := by
  cases i
  case call =>
    simp only [effect, State.setPc_stack, State.setSp_stack, State.setStack_stack, Fin.getElem_fin,
      Vector.getElem_setIfInBounds]
    split
    · exact hpc
    · exact hst j
  all_goals simpa [effect] using hst j

/-- An instruction fetched inside the memory, in a state in the ranges, leaves `SP`, `PC` and the stack in them. -/
theorem exec_keeps_ranges {s u : State} {i : Instr} (hs : s.Inv) (hpc : s.pc.toNat ≤ 0xFFE)
    (h : exec i s.advance = .next u) :
    u.sp.toNat ≤ 15 ∧ u.pc.toNat ≤ 0x10FE ∧ ∀ j : Fin 16, u.stack[j].toNat ≤ 0x1000 := by
  obtain ⟨hsp, hpc', hst, -⟩ := hs
  have hnpc : s.advance.pc.toNat = s.pc.toNat + 2 := pc_add_two_toNat hpc
  rcases exec_next_cases h with ⟨c, n, -, rfl⟩ | ⟨hr, -, rfl⟩
  · exact ⟨hsp, by simpa using hpc', hst⟩
  · refine ⟨effect_sp_le hr hsp, ?_, effect_stack_le i (by omega) hst⟩
    exact (effect_pc_toNat i hpc hnpc).trans_le (pcAfter_le i hpc hst)

/-! ### The dirty flag and the renders (R36, R39, R96) -/

theorem exec_endStep_dirty {s u : State} {i : Instr} (hd : s.dirty = false) (h : exec i s = .next u) :
    u.endStep.dirty = false := by
  rw [State.endStep_dirty]
  rcases exec_next_cases h with ⟨c, n, -, rfl⟩ | ⟨-, -, rfl⟩
  · simp [hd]
  · simp

/-- Around an instruction that finds `dirty = 0`, the end of the step renders exactly when it drew and completed. -/
theorem exec_endStep_renders {s u : State} {i : Instr} (hd : s.dirty = false) (h : exec i s = .next u) :
    u.endStep.renders = if u.mode.terminal = false ∧ i.draws = true then s.renders ++ [u.fb] else s.renders := by
  rw [State.endStep_renders]
  rcases exec_next_cases h with ⟨c, n, -, rfl⟩ | ⟨-, -, rfl⟩
  · simp [Mode.terminal]
  · simp [effect_dirty, hd]

end Sys2Proof.Machine

/-! ### The statements on state, frames and reset -/

section StateStatements

open Sys2Proof Sys2Proof.Machine

/-- Settles O15, by the five cases of a step: only an executed instruction changes a range, and there `effect_sp_le`,
`pcAfter_le` and `effect_stack_le` bound the new values. -/
theorem stepKeepsRanges : Obligations.StepKeepsRanges := by
  intro s t hs h
  obtain ⟨hsp, hpc, hst, hd⟩ := id hs
  rcases step_cases s t h with ⟨-, rfl⟩ | ⟨-, -, rfl⟩ |
    ⟨-, ⟨-, rfl⟩ | ⟨-, -, rfl⟩ | ⟨hpc', i, u, -, hu, rfl⟩⟩
  · exact hs
  · exact hs
  · exact hs
  · exact ⟨hsp, by simpa using hpc, hst, hd⟩
  · obtain ⟨hsp', hpc', hst'⟩ := exec_keeps_ranges (s := s.takeSample) hs hpc' hu
    rw [State.Inv, State.endStep_sp, State.endStep_pc, State.endStep_stack]
    exact ⟨hsp', hpc', hst', exec_endStep_dirty (s := s.takeSample.advance) hd hu⟩

/-- Settles O42, by the five cases of a step: outside an instruction nothing is rendered, and an instruction sets
`dirty` exactly when it draws. -/
theorem oneRenderPerDraw : Obligations.OneRenderPerDraw := by
  intro s t hd h
  rcases step_cases s t h with ⟨hm, rfl⟩ | ⟨-, hq, rfl⟩ |
    ⟨hrun, ⟨hpc, rfl⟩ | ⟨-, ⟨e, he⟩, rfl⟩ | ⟨hpc, i, u, hi, hu, rfl⟩⟩
  · exact ⟨fun i hs => by simp [State.takesStep, hm] at hs, fun _ => rfl⟩
  · exact ⟨fun i hs => by simp [State.takesStep, hq] at hs, fun _ => rfl⟩
  · exact ⟨fun i _ hp => by omega, fun _ => rfl⟩
  · exact ⟨fun i _ _ hi => (nomatch he.symm.trans hi), fun _ => rfl⟩
  · rw [exec_endStep_renders (s := s.takeSample.advance) hd hu, State.endStep_mode, State.endStep_fb]
    refine ⟨fun i' _ _ hi' hdr hm => ?_, fun hno => if_neg ?_⟩
    · cases hi.symm.trans hi'
      exact if_pos ⟨hm, hdr⟩
    · rintro ⟨hm, hdr⟩
      rcases hno with hs | hp | ht | hnd
      · simp [State.takesStep, hrun] at hs
      · omega
      · simp [hm] at ht
      · simp [hnd i hi] at hdr

/-- Settles O49: a raise writes no register and an effect writes those of the table. -/
theorem registerFrame : Obligations.RegisterFrame := by
  intro i s t h r hr
  exact exec_keeps (fun s => s.v[r]) h (fun _ _ => rfl) (effect_v s hr)

/-- Settles O50: a raise stores nothing and an effect stores inside the block at `I`. -/
theorem memoryFrame : Obligations.MemoryFrame := by
  intro i s t h a ha
  exact exec_keeps (fun s => s.mem.read a) h (fun _ _ => rfl) (effect_read s ha)

/-- Settles O51, one frame lemma of `effect` for each component. -/
theorem specialStateFrame : Obligations.SpecialStateFrame := by
  intro i s t h
  rcases exec_next_cases h with ⟨c, n, -, rfl⟩ | ⟨-, -, rfl⟩
  · simp
  · exact ⟨effect_i s, fun hn => effect_sp s hn.1 hn.2, effect_stack s,
      fun hd => ⟨effect_fb s hd, by simp [effect_dirty, hd]⟩, effect_dt s, effect_st s, effect_randoms s,
      effect_k s i, effect_phase s i, effect_inputs s i, effect_inputDraws s i, effect_renders s i⟩

/-- Settles O52: a raise takes the advance of `PC` back, an effect leaves the table's value. -/
theorem pcAfterEveryInstruction : Obligations.PcAfterEveryInstruction := by
  intro s t i hs hpc hd h
  obtain ⟨u, hu, rfl⟩ := finishStep_next_iff.mp ((step_of_decoded hs hpc hd).symm.trans h)
  rw [State.endStep_mode, State.endStep_pc]
  rcases exec_next_cases hu with ⟨c, n, -, rfl⟩ | ⟨-, -, rfl⟩
  · simp [Mode.terminal]
  · refine ⟨fun _ => ?_, fun hm => by simp at hm⟩
    exact (effect_pc_toNat i hpc (pc_add_two_toNat hpc)).trans (pcAfter_advance _ s.withSample i)

/-- Settles O54: the five cases of a step are decided without `ST`, and no effect reads it. -/
theorem soundTimerIsUnobservable : Obligations.SoundTimerIsUnobservable := by
  intro s t b h
  rcases step_cases s t h with ⟨hm, rfl⟩ | ⟨hm, hq, rfl⟩ |
    ⟨hrun, ⟨hpc, rfl⟩ | ⟨hpc, ⟨e, he⟩, rfl⟩ | ⟨hpc, i, u, hi, hu, rfl⟩⟩
  · exact ⟨_, step_of_terminal hm, rfl⟩
  · exact ⟨_, step_of_quit hm hq, rfl⟩
  · exact ⟨_, step_of_fetchFails (s.takesStep_iff.mpr hrun) hpc, rfl⟩
  · exact ⟨_, step_of_illegal (s.takesStep_iff.mpr hrun) hpc he, rfl⟩
  · obtain ⟨w, hw, hwu⟩ := exec_setSt b hu
    have hstep := step_of_decoded (s := s.setSt b) (s.takesStep_iff.mpr hrun) hpc hi
    exact ⟨w.endStep, hstep.trans (finishStep_next_iff.mpr ⟨w, hw, rfl⟩), State.endStep_setSt_congr hwu⟩

/-- Settles O55: neither the raise table nor an effect outside the keypad reads the latch. -/
theorem onlyKeypadReadsKeys : Obligations.OnlyKeypadReadsKeys := by
  intro i s t keys hk h
  rcases exec_next_cases h with ⟨c, n, hr, rfl⟩ | ⟨hr, hsp, rfl⟩
  · exact exec_of_raises ((raisesAs_setK i s keys).trans hr)
  · rw [exec_of_completes ((raisesAs_setK i s keys).trans hr) hsp, effect_setK s keys hk,
      modeAfter_of_not_readsKeys _ hk, modeAfter_of_not_readsKeys _ hk]
    rfl

/-- Settles O16: the four components of the invariant do not depend on the arguments of reset. -/
theorem resetIsInRange : Obligations.ResetIsInRange := by
  have h : State.reset.Inv := by decide
  exact ⟨h, fun _ _ _ => h⟩

/-- Settles O19, from the definition of reset; the length decides the mode alone. -/
theorem resetComponents : Obligations.ResetComponents := by
  rintro font program s _ rfl
  refine ⟨fun x => Vector.getElem_replicate x.isLt, rfl, rfl, rfl, fun j => Vector.getElem_replicate j.isLt,
    fun j _ => BitVec.getLsbD_zero, rfl, rfl, rfl, rfl, rfl, fun hl => ?_, fun hl => ?_, rfl⟩
  · exact if_pos (Nat.le_of_lt_succ hl)
  · exact if_neg (Nat.not_le.mpr hl)

/-- Settles O53: both steps are the step of `step_setMode`, which does not mention the mode. -/
theorem awaitingKeyIsStatusOnly : Obligations.AwaitingKeyIsStatusOnly := by
  intro s
  exact (step_setMode s (m := .awaitingKey) rfl).trans (step_setMode s (m := .running) rfl).symm

end StateStatements

/-! PROOFS. Memory (family 20_memory): what a block of stored bytes reads as, the reset image, the canonical form under
every effect, and the statements settled from them. -/

namespace Sys2Proof.Machine

/-! ### Stored blocks -/

/-- A block of bytes written, read at any address: the block's byte where it has one, else what was there. -/
theorem Memory.read_writeBytes (m : Memory) (a a' : Nat) (bs : List Byte) :
    (m.writeBytes a bs).read a' = if a ≤ a' then bs[a' - a]?.getD (m.read a') else m.read a' := by
  split
  · next ha =>
    obtain ⟨j, rfl⟩ := Nat.exists_eq_add_of_le ha
    rw [Nat.add_sub_cancel_left]
    by_cases hj : j < bs.length
    · simp [m.read_writeBytes_inside a j bs hj, hj]
    · rw [m.read_writeBytes_outside a (a + j) bs (by omega), List.getElem?_eq_none (by omega), Option.getD_none]
  · next ha => exact m.read_writeBytes_outside a a' bs (by omega)

/-- Register `j` of the registers stored at `a` reads back at `a + j` (R160). -/
theorem State.read_writeBytes_regsUpTo (s : State) (m : Memory) (a : Nat) {x j : Reg} (hj : j.val ≤ x.val) :
    (m.writeBytes a (s.regsUpTo x)).read (a + j.val) = s.v[j] := by
  have hl : j.val < (s.regsUpTo x).length := by rw [s.regsUpTo_length]; omega
  rw [m.read_writeBytes_inside a j.val _ hl, s.regsUpTo_get x j.val hl, Fin.getElem_fin]

/-- `FX55` in bounds completes with its registers stored (R160). -/
theorem exec_ldMemVx_of_fits (x : Reg) (s : State) (h : s.i.toNat + x.val ≤ 0xFFF) :
    exec (.ldMemVx x) s = .next (s.setMem (s.mem.writeBytes s.i.toNat (s.regsUpTo x))).complete :=
  congrArg Host.Outcome.next (s.access_of_fits _ _ _ (.inr (by omega)))

/-! ### The reset image (R53) -/

theorem Memory.unlisted_of_ge {a : Nat} (h : 80 ≤ a) : Memory.unlisted a = 0 := by
  simp [Memory.unlisted, h]

/-- Memory at reset: the font, then zeros, with the program over them from `0x200` on. -/
theorem resetMemory_read (font : Vector Byte 80) (program : List Byte) (a : Nat) :
    (resetMemory font program).read a =
      if h : a < 80 then font[a] else if 0x200 ≤ a then program[a - 0x200]?.getD 0 else 0 := by
  rw [resetMemory, Memory.read_writeBytes]
  have hfont : (Memory.writeBytes [] Config.fontBase font.toList).read a = if h : a < 80 then font[a] else 0 := by
    rw [Memory.read_writeBytes, if_pos (Nat.zero_le a)]
    split
    · next h => simp [h]
    · next h => simp [h, Memory.read, Memory.unlisted_of_ge (Nat.le_of_not_lt h)]
  rw [hfont]
  by_cases h : a < 80
  · simp [h, show ¬ 0x200 ≤ a by omega]
  · simp [h]

/-! ### The canonical form (R50, R54) -/

/-- Memory at reset is canonical: the font and an accepted program end below `0x1000`. -/
theorem resetMemory_wf (font : Vector Byte 80) {program : List Byte} (h : program.length ≤ Config.progMax) :
    (resetMemory font program).wf = true := by
  have hfont : Config.fontBase + font.toList.length ≤ Config.memSize := by rw [Vector.length_toList]; decide
  have hprogram : Config.progBase + program.length ≤ Config.memSize :=
    (Nat.add_le_add_left h Config.progBase).trans (by decide)
  exact Memory.wf_writeBytes _ _ _ hprogram (Memory.wf_writeBytes _ _ _ hfont rfl)

theorem fits_of_dataRaise_none {s : State} {n : Nat} (hn : 0 < n) (h : dataRaise s n = none) :
    s.i.toNat + n ≤ 0x1000 := by
  simp only [dataRaise, ite_eq_right_iff, reduceCtorEq, imp_false] at h
  omega

/-- An effect whose access check has passed stores inside the memory, so it keeps the canonical form. -/
theorem effect_mem_wf {s : State} {i : Instr} (hr : raisesAs s i = none) (hm : s.mem.wf = true) :
    (effect s i).mem.wf = true := by
  cases i
  case ldBVx => exact Memory.wf_writeBytes _ _ _ (fits_of_dataRaise_none (n := 3) (by decide) hr) hm
  case ldMemVx x =>
    refine Memory.wf_writeBytes _ _ _ ?_ hm
    rw [State.regsUpTo_length]
    exact fits_of_dataRaise_none x.val.succ_pos hr
  all_goals simpa [effect] using hm

theorem exec_mem_wf {s t : State} {i : Instr} (hm : s.mem.wf = true) (h : exec i s = .next t) : t.mem.wf = true := by
  rcases exec_next_cases h with ⟨c, n, -, rfl⟩ | ⟨hr, -, rfl⟩
  · exact hm
  · exact effect_mem_wf hr hm

end Sys2Proof.Machine

/-! ### The statements on memory -/

section MemoryStatements

open Sys2Proof Sys2Proof.Machine

/-- Settles O17, by the five cases of a step: only an executed instruction changes memory, and there `exec_mem_wf`
keeps the form. -/
theorem stepKeepsMemoryCanonical : Obligations.StepKeepsMemoryCanonical := by
  intro s t hm h
  rcases step_cases s t h with ⟨-, rfl⟩ | ⟨-, -, rfl⟩ |
    ⟨-, ⟨-, rfl⟩ | ⟨-, -, rfl⟩ | ⟨-, i, u, -, hu, rfl⟩⟩
  · exact hm
  · exact hm
  · exact hm
  · exact hm
  · rw [State.endStep_mem]
    exact exec_mem_wf (s := s.takeSample.advance) hm hu

/-- Settles O20, from the image `resetMemory_read` of the program that is loaded: the whole one or none. -/
theorem resetMemoryImage : Obligations.ResetMemoryImage := by
  intro font program s a
  rw [State.applyReset, resetMemory_read]
  by_cases hl : program.length < 3584
  · simp [hl, Nat.le_of_lt_succ hl]
  · simp [hl, show ¬ program.length ≤ 3583 by omega]

/-- Settles O48: the stored block holds register `j` at `I + j` and register `j + 1` at the next address. -/
theorem storeSeenByFetch : Obligations.StoreSeenByFetch := by
  intro x j k s t h hfits hjk hkx hpc
  rw [exec_ldMemVx_of_fits x s hfits] at h
  cases h
  rw [State.opcodeAtPc, hpc, Nat.add_assoc, ← hjk]
  exact congrArg₂ (· ++ ·) (s.read_writeBytes_regsUpTo _ _ (by omega)) (s.read_writeBytes_regsUpTo _ _ hkx)

/-- Settles O7: the failed fetch of the step, in the words of `withSample`. -/
theorem fetchBeyondMemoryHalts : Obligations.FetchBeyondMemoryHalts :=
  fun _ hs hpc => step_of_fetchFails hs hpc

/-- Settles O18: a rejected program leaves the image of the empty one, so the loaded program always fits. -/
theorem resetMemoryIsCanonical : Obligations.ResetMemoryIsCanonical := by
  intro font program s
  refine resetMemory_wf font ?_
  split
  · next h => exact h
  · exact Nat.zero_le _

/-- Settles O40: the access check of `DXYN` fails before anything is drawn. -/
theorem drawOutOfBounds : Obligations.DrawOutOfBounds := by
  intro x y n s hn hout
  exact congrArg Host.Outcome.next (s.access_of_fails _ _ _ (by omega))

end MemoryStatements

/-! PROOFS. Encoding (family 30_encoding): what a word's fields and masks are, the row of an instruction, the round trip
in both directions, and the statements settled from them. -/

namespace Sys2Proof

/-! ### A word taken apart and put together again (R71, R72) -/

/-- The family nibble, `op[15:12]` (R71). -/
def family (op : Word) : BitVec 4 := op.extractLsb' 12 4

/-- `op[3:0]` as the nibble that the formats `XY` and `XYN` end in (R72). -/
def lastNibble (op : Word) : BitVec 4 := op.extractLsb' 0 4

theorem family_toNat (op : Word) : (family op).toNat = op.toNat / 4096 := by
  have := op.isLt
  simp only [family, BitVec.extractLsb'_toNat, Nat.shiftRight_eq_div_pow]
  omega

theorem lastNibble_toNat (op : Word) : (lastNibble op).toNat = op.toNat % 16 := fieldN_eq op

theorem ofNat_fieldN (op : Word) : BitVec.ofNat 4 (fieldN op) = lastNibble op := BitVec.ofNat_toNat 4 (lastNibble op)

/-- A word is its family and `NNN`. -/
theorem formatA_fields (op : Word) : formatA (family op) (fieldNNN op) = op := by
  apply BitVec.eq_of_toNat_eq
  rw [formatA_toNat, family_toNat, fieldNNN_toNat]
  omega

/-- A word is its family, `X` and `NN`. -/
theorem formatXB_fields (op : Word) : formatXB (family op) (fieldX op) (fieldNN op) = op := by
  apply BitVec.eq_of_toNat_eq
  rw [formatXB_toNat, family_toNat, fieldX_val, fieldNN_toNat]
  omega

/-- A word is its four nibbles. -/
theorem formatXY_fields (op : Word) : formatXY (family op) (fieldX op) (fieldY op) (lastNibble op) = op := by
  apply BitVec.eq_of_toNat_eq
  rw [formatXY_toNat, family_toNat, fieldX_val, fieldY_val, lastNibble_toNat]
  omega

/-! ### The fields of an encoded word -/

theorem family_formatA (f : BitVec 4) (nnn : BitVec 12) : family (formatA f nnn) = f := by
  apply BitVec.eq_of_toNat_eq
  rw [family_toNat, formatA_toNat]
  omega

theorem fieldNNN_formatA (f : BitVec 4) (nnn : BitVec 12) : fieldNNN (formatA f nnn) = nnn := by
  apply BitVec.eq_of_toNat_eq
  rw [fieldNNN_toNat, formatA_toNat]
  omega

theorem family_formatXB (f : BitVec 4) (x : Reg) (nn : Byte) : family (formatXB f x nn) = f := by
  apply BitVec.eq_of_toNat_eq
  rw [family_toNat, formatXB_toNat]
  omega

theorem fieldX_formatXB (f : BitVec 4) (x : Reg) (nn : Byte) : fieldX (formatXB f x nn) = x := by
  apply Fin.ext
  rw [fieldX_val, formatXB_toNat]
  omega

theorem fieldNN_formatXB (f : BitVec 4) (x : Reg) (nn : Byte) : fieldNN (formatXB f x nn) = nn := by
  apply BitVec.eq_of_toNat_eq
  rw [fieldNN_toNat, formatXB_toNat]
  omega

theorem family_formatXF (f : BitVec 4) (x : Reg) (fn : Byte) : family (formatXF f x fn) = f := family_formatXB f x fn

theorem fieldX_formatXF (f : BitVec 4) (x : Reg) (fn : Byte) : fieldX (formatXF f x fn) = x := fieldX_formatXB f x fn

theorem fieldNN_formatXF (f : BitVec 4) (x : Reg) (fn : Byte) : fieldNN (formatXF f x fn) = fn :=
  fieldNN_formatXB f x fn

theorem family_formatXY (f : BitVec 4) (x y : Reg) (n : BitVec 4) : family (formatXY f x y n) = f := by
  apply BitVec.eq_of_toNat_eq
  rw [family_toNat, formatXY_toNat]
  omega

theorem fieldX_formatXY (f : BitVec 4) (x y : Reg) (n : BitVec 4) : fieldX (formatXY f x y n) = x := by
  apply Fin.ext
  rw [fieldX_val, formatXY_toNat]
  omega

theorem fieldY_formatXY (f : BitVec 4) (x y : Reg) (n : BitVec 4) : fieldY (formatXY f x y n) = y := by
  apply Fin.ext
  rw [fieldY_val, formatXY_toNat]
  omega

theorem lastNibble_formatXY (f : BitVec 4) (x y : Reg) (n : BitVec 4) : lastNibble (formatXY f x y n) = n := by
  apply BitVec.eq_of_toNat_eq
  rw [lastNibble_toNat, formatXY_toNat]
  omega

theorem fieldN_formatXY (f : BitVec 4) (x y : Reg) (n : BitVec 4) : fieldN (formatXY f x y n) = n.toNat :=
  congrArg BitVec.toNat (lastNibble_formatXY f x y n)

/-! ### What a row's mask keeps of a word (R74) -/

/-- The mask of a family with one row. -/
theorem and_F000 (op : Word) : op &&& 0xF000 = formatA (family op) 0 := by
  conv_lhs => rw [← formatA_fields op]
  exact Laws.formatA_mask _ _

/-- The mask of the families that end in a function nibble. -/
theorem and_F00F (op : Word) : op &&& 0xF00F = formatXY (family op) 0 0 (lastNibble op) := by
  conv_lhs => rw [← formatXY_fields op]
  exact Laws.formatXY_mask _ _ _ _

/-- The mask of the families that end in a function byte. -/
theorem and_F0FF (op : Word) : op &&& 0xF0FF = formatXF (family op) 0 (fieldNN op) := by
  conv_lhs => rw [← formatXB_fields op]
  exact Laws.formatXF_mask _ _ _

theorem and_F000_eq_formatA {op : Word} {f : BitVec 4} : op &&& 0xF000 = formatA f 0 ↔ family op = f := by
  rw [and_F000]
  refine ⟨fun h => ?_, congrArg (formatA · 0)⟩
  simpa only [family_formatA] using congrArg family h

theorem and_F00F_eq_formatXY {op : Word} {f n : BitVec 4} :
    op &&& 0xF00F = formatXY f 0 0 n ↔ family op = f ∧ lastNibble op = n := by
  rw [and_F00F]
  refine ⟨fun h => ⟨?_, ?_⟩, fun ⟨hf, hn⟩ => by rw [hf, hn]⟩
  · simpa only [family_formatXY] using congrArg family h
  · simpa only [lastNibble_formatXY] using congrArg lastNibble h

theorem and_F0FF_eq_formatXF {op : Word} {f : BitVec 4} {fn : Byte} :
    op &&& 0xF0FF = formatXF f 0 fn ↔ family op = f ∧ fieldNN op = fn := by
  rw [and_F0FF]
  refine ⟨fun h => ⟨?_, ?_⟩, fun ⟨hf, hn⟩ => by rw [hf, hn]⟩
  · simpa only [family_formatXF] using congrArg family h
  · simpa only [fieldNN_formatXF] using congrArg fieldNN h

/-! A word with the fixed bits of a row is rebuilt from them and the fields the row leaves free (R72, R75). -/

theorem formatA_of_and {op : Word} {f : BitVec 4} (h : op &&& 0xF000 = formatA f 0) :
    formatA f (fieldNNN op) = op := by
  rw [← and_F000_eq_formatA.mp h, formatA_fields]

theorem formatXB_of_and {op : Word} {f : BitVec 4} (h : op &&& 0xF000 = formatA f 0) :
    formatXB f (fieldX op) (fieldNN op) = op := by
  rw [← and_F000_eq_formatA.mp h, formatXB_fields]

theorem formatXYN_of_and {op : Word} {f : BitVec 4} (h : op &&& 0xF000 = formatA f 0) :
    formatXY f (fieldX op) (fieldY op) (BitVec.ofNat 4 (fieldN op)) = op := by
  rw [← and_F000_eq_formatA.mp h, ofNat_fieldN, formatXY_fields]

theorem formatXY_of_and {op : Word} {f n : BitVec 4} (h : op &&& 0xF00F = formatXY f 0 0 n) :
    formatXY f (fieldX op) (fieldY op) n = op := by
  obtain ⟨rfl, rfl⟩ := and_F00F_eq_formatXY.mp h
  exact formatXY_fields op

theorem formatXF_of_and {op : Word} {f : BitVec 4} {fn : Byte} (h : op &&& 0xF0FF = formatXF f 0 fn) :
    formatXF f (fieldX op) fn = op := by
  obtain ⟨rfl, rfl⟩ := and_F0FF_eq_formatXF.mp h
  exact formatXB_fields op

/-! ### The row of an instruction -/

/-- The row of the opcode map that builds `i`: the rows stand in the order of the constructors (R75). -/
def rowOf (i : Instr) : OpcodeRow := opcodeMap[i.ctorIdx]'(by cases i <;> exact of_decide_eq_true rfl)

theorem rowOf_mem (i : Instr) : rowOf i ∈ opcodeMap := List.getElem_mem _

theorem rowOf_selects (i : Instr) (op : Word) :
    (rowOf i).selects op = true ↔ op &&& (Laws.fixedBits i).1 = (Laws.fixedBits i).2 := by
  have h : ((rowOf i).mask, (rowOf i).fixed) = Laws.fixedBits i := by cases i <;> rfl
  rw [OpcodeRow.selects, beq_iff_eq, ← h]

/-- What row number `n` builds is an instruction of that row. -/
theorem ctorIdx_build (n : Fin opcodeMap.length) (op : Word) : (opcodeMap[n].build op).ctorIdx = n := by
  fin_cases n <;> rfl

theorem rowOf_build {r : OpcodeRow} (h : r ∈ opcodeMap) (op : Word) : rowOf (r.build op) = r := by
  obtain ⟨n, hn, rfl⟩ := List.mem_iff_getElem.mp h
  simp only [rowOf]
  congr 1
  exact ctorIdx_build ⟨n, hn⟩ op

/-- A word decodes to `i` exactly when `i`'s row selects it and builds `i` from it. -/
theorem decodeWord_eq_ok_iff {op : Word} {i : Instr} :
    decodeWord op = .ok i ↔ (rowOf i).selects op = true ∧ (rowOf i).build op = i := by
  constructor
  · intro h
    obtain ⟨r, hr, hs, rfl⟩ := row_of_decodeWord h
    rw [rowOf_build hr]
    exact ⟨hs, rfl⟩
  · rintro ⟨hs, hb⟩
    rw [decodeWord_of_row (rowOf_mem i) hs, hb]

/-- A word is refused exactly when no row selects it. -/
theorem decodeWord_eq_invalidOpcode_iff {op : Word} :
    decodeWord op = .error (.invalidOpcode op) ↔ ∀ r ∈ opcodeMap, r.selects op = false := by
  refine ⟨fun h => (no_row_of_decodeWord_error h).2, fun h => ?_⟩
  rw [decodeWord, List.find?_eq_none.mpr (by simpa using h)]

/-! ### Encode, then decode (R81) -/

open Laws in
theorem encode_selects : ∀ i : Instr, SelectsRow.Statement i
  | .cls => SelectsRow.cls | .ret => SelectsRow.ret | .jp nnn => SelectsRow.jp nnn | .call nnn => SelectsRow.call nnn
  | .seVxNn x nn => SelectsRow.seVxNn x nn | .sneVxNn x nn => SelectsRow.sneVxNn x nn
  | .seVxVy x y => SelectsRow.seVxVy x y | .ldVxNn x nn => SelectsRow.ldVxNn x nn
  | .addVxNn x nn => SelectsRow.addVxNn x nn | .ldVxVy x y => SelectsRow.ldVxVy x y
  | .orVxVy x y => SelectsRow.orVxVy x y | .andVxVy x y => SelectsRow.andVxVy x y
  | .xorVxVy x y => SelectsRow.xorVxVy x y | .addVxVy x y => SelectsRow.addVxVy x y | .sub x y => SelectsRow.sub x y
  | .shr x y => SelectsRow.shr x y | .subn x y => SelectsRow.subn x y | .shl x y => SelectsRow.shl x y
  | .sneVxVy x y => SelectsRow.sneVxVy x y | .ldINnn nnn => SelectsRow.ldINnn nnn | .jpV0 nnn => SelectsRow.jpV0 nnn
  | .rnd x nn => SelectsRow.rnd x nn | .drw x y n => SelectsRow.drw x y n | .skp x => SelectsRow.skp x
  | .sknp x => SelectsRow.sknp x | .ldVxDt x => SelectsRow.ldVxDt x | .ldVxK x => SelectsRow.ldVxK x
  | .ldDtVx x => SelectsRow.ldDtVx x | .ldStVx x => SelectsRow.ldStVx x | .addIVx x => SelectsRow.addIVx x
  | .ldFVx x => SelectsRow.ldFVx x | .ldBVx x => SelectsRow.ldBVx x | .ldMemVx x => SelectsRow.ldMemVx x
  | .ldVxMem x => SelectsRow.ldVxMem x

/-- The row of a well-formed instruction reads its operands back from its encoding. -/
theorem build_encode {i : Instr} (h : i.wellFormed = true) : (rowOf i).build (encode i) = i := by
  cases i
  case cls | ret => rfl
  case jp | call | ldINnn | jpV0 => simp [rowOf, opcodeMap, Instr.ctorIdx, encode, fieldNNN_formatA]
  case seVxNn | sneVxNn | ldVxNn | addVxNn | rnd =>
    simp [rowOf, opcodeMap, Instr.ctorIdx, encode, fieldX_formatXB, fieldNN_formatXB]
  case drw x y n =>
    have hn : n < 16 := of_decide_eq_true h
    simp [rowOf, opcodeMap, Instr.ctorIdx, encode, fieldX_formatXY, fieldY_formatXY, fieldN_formatXY, hn]
  case skp | sknp | ldVxDt | ldVxK | ldDtVx | ldStVx | addIVx | ldFVx | ldBVx | ldMemVx | ldVxMem =>
    simp [rowOf, opcodeMap, Instr.ctorIdx, encode, fieldX_formatXF]
  all_goals simp [rowOf, opcodeMap, Instr.ctorIdx, encode, fieldX_formatXY, fieldY_formatXY]

theorem decodeWord_encode {i : Instr} (h : i.wellFormed = true) : decodeWord (encode i) = .ok i :=
  decodeWord_eq_ok_iff.mpr ⟨(rowOf_selects i _).mpr (encode_selects i), build_encode h⟩

theorem decode_encodeBytes {i : Instr} (h : i.wellFormed = true) (rest : List Byte) :
    decode (encodeBytes i ++ rest) = .ok (i, rest) := by
  simp only [encodeBytes, List.cons_append, List.nil_append, decode, wordOfBytes_bytes, decodeWord_encode h]

/-! ### Decode, then encode (R81) -/

theorem wellFormed_build (i : Instr) (op : Word) : ((rowOf i).build op).wellFormed = true := by
  cases i
  case drw => exact decide_eq_true (op.extractLsb' 0 4).isLt
  all_goals rfl

/-- What a row builds from a word it selects encodes to the word: the row fixes the bits that it does not read. -/
theorem encode_build {i : Instr} {op : Word} (h : (rowOf i).selects op = true) : encode ((rowOf i).build op) = op := by
  rw [rowOf_selects] at h
  cases i
  case cls | ret => exact h.symm.trans BitVec.and_allOnes
  case jp | call | ldINnn | jpV0 => exact formatA_of_and h
  case seVxNn | sneVxNn | ldVxNn | addVxNn | rnd => exact formatXB_of_and h
  case drw => exact formatXYN_of_and h
  case skp | sknp | ldVxDt | ldVxK | ldDtVx | ldStVx | addIVx | ldFVx | ldBVx | ldMemVx | ldVxMem =>
    exact formatXF_of_and h
  all_goals exact formatXY_of_and h

/-! ### The refused words (R76) -/

/-! The masks as numbers, for a match `c` that has no bit outside its mask. -/

theorem and_FFFF_eq_iff {op c : Word} : op &&& 0xFFFF = c ↔ op.toNat = c.toNat := by
  rw [BitVec.toNat_inj, show (0xFFFF : Word) = BitVec.allOnes 16 from rfl, BitVec.and_allOnes]

theorem and_F000_eq_iff {op c : Word} (hc : c &&& 0xF000 = c) :
    op &&& 0xF000 = c ↔ op.toNat / 4096 = c.toNat / 4096 := by
  rw [← hc, and_F000 c, and_F000_eq_formatA, ← BitVec.toNat_inj, family_toNat, ← and_F000 c, hc, family_toNat]

theorem and_F00F_eq_iff {op c : Word} (hc : c &&& 0xF00F = c) :
    op &&& 0xF00F = c ↔ op.toNat / 4096 = c.toNat / 4096 ∧ op.toNat % 16 = c.toNat % 16 := by
  rw [← hc, and_F00F c, and_F00F_eq_formatXY, ← BitVec.toNat_inj, ← BitVec.toNat_inj, ← and_F00F c, hc]
  simp only [family_toNat, lastNibble_toNat]

theorem and_F0FF_eq_iff {op c : Word} (hc : c &&& 0xF0FF = c) :
    op &&& 0xF0FF = c ↔ op.toNat / 4096 = c.toNat / 4096 ∧ op.toNat % 256 = c.toNat % 256 := by
  rw [← hc, and_F0FF c, and_F0FF_eq_formatXF, ← BitVec.toNat_inj, ← BitVec.toNat_inj, ← and_F0FF c, hc]
  simp only [family_toNat, fieldNN_toNat]

end Sys2Proof

/-! ### The statements on encoding -/

section EncodingStatements

open Sys2Proof

/-- Settles O2, by the row of each instruction: it selects the encoding and reads the operands back from it. -/
theorem encodeThenDecode : Obligations.EncodeThenDecode :=
  fun _ rest h => ⟨decodeWord_encode h, decode_encodeBytes h rest⟩

/-- Settles O3, by the row that selected the word: its fixed bits and the fields it reads are the whole word. -/
theorem decodeThenEncode : Obligations.DecodeThenEncode := by
  intro op i h
  obtain ⟨hs, hb⟩ := decodeWord_eq_ok_iff.mp h
  have hw := wellFormed_build i op
  have he := encode_build hs
  rw [hb] at hw he
  exact ⟨hw, he⟩

/-- Settles O4: no row may select the word; with the masks read as numbers and the family fixed, the rows of the other
families drop out, and what the remaining ones leave over is the table. -/
theorem illegalWordsExactly : Obligations.IllegalWordsExactly := by
  intro op
  have hf : op.toNat / 4096 < 16 := by omega
  rw [decodeWord_eq_invalidOpcode_iff]
  simp (disch := decide) only [opcodeMap, List.forall_mem_cons, OpcodeRow.selects, beq_eq_false_iff_ne, ne_eq,
    and_FFFF_eq_iff, and_F000_eq_iff, and_F00F_eq_iff, and_F0FF_eq_iff]
  interval_cases h : op.toNat / 4096
  all_goals simp
  -- Left are the families with a function nibble or byte: 5, 8, 9, E and F.
  all_goals omega

/-- Settles O1, by evaluating the decoder on the eleven words. -/
theorem sampleWordsDecode : Obligations.SampleWordsDecode := by
  unfold Obligations.SampleWordsDecode
  decide

end EncodingStatements

/-! PROOFS. The step (family 40_step_cycle): the step always answers, its illegal word and its end in the words of the
spec, the batch count over many steps, and the statements settled from them. -/

namespace Sys2Proof.Machine

/-! ### Every instruction answers while `SP` is at most 16 (R27, R91) -/

theorem exec_answers (i : Instr) {s : State} (hsp : s.sp.toNat ≤ 16) : ∃ u, exec i s = .next u := by
  cases hr : raisesAs s i with
  | some p => exact ⟨_, exec_of_raises hr⟩
  | none => exact ⟨_, exec_of_completes hr fun _ => hsp⟩

/-! ### A raise right after the fetch (R93, R173) -/

/-- The raise takes the advance of `PC` back, so that only the mode differs. -/
theorem State.advance_raise (s : State) (c : Cause) (n : Nat) : s.advance.raise c n = s.setMode (.halted c n) :=
  congrArg (fun pc => (s.setPc pc).setMode (.halted c n)) (BitVec.add_sub_cancel s.pc 2)

/-! ### The batch count (R97, R98) -/

theorem decTimer_eq_ofNat (b : Byte) : decTimer b = BitVec.ofNat 8 (b.toNat - 1) := by
  rw [← decTimer_toNat, BitVec.ofNat_toNat, BitVec.setWidth_eq]

/-- The cyclic successor of a phase, with the wrap after the last one written out. -/
theorem phase_succ_eq_ite (p : Fin 20) : p + 1 = if p = 19 then 0 else p + 1 := by
  split
  · next h => rw [h]; rfl
  · rfl

theorem State.count_phase_val (s : State) : s.count.phase.val = (s.phase.val + 1) % 20 := by
  rw [State.count_eq]; exact Fin.val_add s.phase 1

/-- A timer loses one exactly when the count completes a batch. -/
theorem timer_after_count (p : Fin 20) (b : Byte) :
    (if p.val = 19 then decTimer b else b).toNat = b.toNat - (p.val + 1) / 20 := by
  split
  · next h => rw [decTimer_toNat, h]
  · next h => rw [Nat.div_eq_of_lt (by omega), Nat.sub_zero]

theorem State.count_dt_toNat (s : State) : s.count.dt.toNat = s.dt.toNat - (s.phase.val + 1) / 20 := by
  rw [State.count_eq]; exact timer_after_count s.phase s.dt

theorem State.count_st_toNat (s : State) : s.count.st.toNat = s.st.toNat - (s.phase.val + 1) / 20 := by
  rw [State.count_eq]; exact timer_after_count s.phase s.st

end Sys2Proof.Machine

/-! ### The statements on the step -/

section StepStatements

open Sys2Proof Sys2Proof.Machine

/-- Settles O11, by induction on the number of counts: the last one adds to the completed batches what
`State.count_phase_val`, `State.count_dt_toNat` and `State.count_st_toNat` say of a single count. -/
theorem timersCountBatches : Obligations.TimersCountBatches := by
  intro m s
  induction m with
  | zero =>
    have hp : s.phase.val / 20 = 0 := Nat.div_eq_of_lt s.phase.isLt
    simp [hp, Nat.mod_eq_of_lt]
  | succ m ih =>
    obtain ⟨hphase, hdt, hst⟩ := ih
    rw [Function.iterate_succ_apply', State.count_phase_val, State.count_dt_toNat, State.count_st_toNat,
      hphase, hdt, hst]
    omega

/-- Settles O14, branch by branch of the step: the terminal modes, the stop on `quit_in`, the failed fetch and the
illegal word each answer by their equation, an instruction by `exec_answers`. -/
theorem stepAlwaysAnswers : Obligations.StepAlwaysAnswers := by
  intro s hsp
  by_cases hm : s.mode.terminal = true
  · exact ⟨_, step_of_terminal hm⟩
  rw [Bool.not_eq_true] at hm
  by_cases hq : s.nextSample.quit = true
  · exact ⟨_, step_of_quit hm hq⟩
  rw [Bool.not_eq_true] at hq
  have hs : s.takesStep = true := s.takesStep_iff.mpr ⟨hm, hq⟩
  by_cases hpc : s.pc.toNat ≤ 0xFFE
  · cases hd : decodeWord (fetchWord s.mem s.pc) with
    | error e => exact ⟨_, step_of_illegal hs hpc hd⟩
    | ok i =>
      obtain ⟨u, hu⟩ := exec_answers i (s := s.takeSample.advance) hsp
      exact ⟨u.endStep, (step_of_decoded hs hpc hd).trans (congrArg finishStep hu)⟩
  · exact ⟨_, step_of_fetchFails hs (Nat.lt_of_not_le hpc)⟩

/-- Settles O5: the decoded branch of the step, in the words of `withSample` and `opcodeAtPc`. -/
theorem stepRunsDecodedInstruction : Obligations.StepRunsDecodedInstruction := by
  intro s i hs hpc hd
  exact (step_of_decoded hs hpc hd).trans rfl

/-- Settles O6: the illegal branch of the step, where the raise restores `PC`. -/
theorem illegalWordHalts : Obligations.IllegalWordHalts := by
  intro s e hs hpc hd
  exact (step_of_illegal hs hpc hd).trans (congrArg Host.Outcome.next (State.advance_raise _ _ _))

/-- Settles O8: both modes are terminal. -/
theorem terminalModesFrozen : Obligations.TerminalModesFrozen := by
  rintro s (hm | ⟨c, n, hm⟩)
  · exact step_of_terminal (congrArg Mode.terminal hm)
  · exact step_of_terminal (congrArg Mode.terminal hm)

/-- Settles O10, by the two cases of the end of a step, with the phase's wrap and the timers' decrement written out. -/
theorem endOfStep : Obligations.EndOfStep := by
  intro t
  refine ⟨t.endStep_of_terminal, fun hm => ?_⟩
  have hlast : t.phase = 19 ↔ t.phase.val = 19 := Fin.ext_iff
  rw [t.endStep_of_completed hm, ← phase_succ_eq_ite]
  simp only [hlast, decTimer_eq_ofNat]

end StepStatements

/-! PROOFS. Control transfer (family 41_control_transfer): the push and the pop on their good paths, the targets of the
jumps, and the statements settled from them. -/

namespace Sys2Proof.Machine

/-! ### Targets (R107, R109) -/

theorem addrOperand_eq_ofNat (nnn : BitVec 12) : addrOperand nnn = BitVec.ofNat 16 nnn.toNat :=
  (BitVec.ofNat_toNat 16 nnn).symm

/-- The sum of `BNNN` fits in `PC`, so it is not reduced (R109). -/
theorem State.offsetTarget_toNat (s : State) (nnn : BitVec 12) :
    (s.offsetTarget nnn).toNat = (s.getV 0).toNat + nnn.toNat := by
  have hsum : (s.getV 0).toNat + nnn.toNat < 2 ^ 16 := by omega
  exact (BitVec.toNat_ofNat _ _).trans (Nat.mod_eq_of_lt hsum)

/-! ### The push and the pop (R106, R108) -/

/-- A push into an entry that exists writes that entry (R28). -/
theorem State.setStack_of_lt (s : State) {n : Nat} (h : n < 16) (a : Word) :
    s.setStack n a = { s with stack := s.stack.set n a } := by
  have he : s.stack.setIfInBounds n a = s.stack.set n a := by
    ext k hk
    rw [Vector.getElem_setIfInBounds, Vector.getElem_set]
  rw [State.setStack, he]

/-- A call with `SP = j` below 15 completes, with npc pushed into entry `j` (R108). -/
theorem exec_call_of_sp {s : State} (nnn : BitVec 12) {j : Fin 15} (h : s.sp.toNat = j.val) :
    exec (.call nnn) s = .next { s with
      stack := s.stack.set j.val s.pc
      sp := BitVec.ofNat 8 (j.val + 1)
      pc := BitVec.ofNat 16 nnn.toNat
      mode := .running } := by
  have hr : raisesAs s (.call nnn) = none := if_neg (by omega)
  have hsp : s.sp + 1 = BitVec.ofNat 8 (j.val + 1) := by bv_omega
  rw [exec_of_completes hr nofun, effect, hsp, h, s.setStack_of_lt (by omega), addrOperand_eq_ofNat]
  rfl

/-- A return with `SP` just above entry `j` completes, with that entry popped into `PC` (R106). -/
theorem exec_ret_of_sp {s : State} {j : Fin 16} (h : s.sp.toNat = j.val + 1) :
    exec .ret s = .next { s with
      sp := BitVec.ofNat 8 j.val
      pc := s.stack[j]
      mode := .running } := by
  have hr : raisesAs s .ret = none := if_neg (by bv_omega)
  have hsp : s.sp - 1 = BitVec.ofNat 8 j.val := by bv_omega
  rw [exec_of_completes hr fun _ => by omega, effect, hsp, h, Nat.add_sub_cancel, Vector.getElem?_eq_getElem j.isLt]
  rfl

end Sys2Proof.Machine

/-! ### The statements on control transfer -/

section ControlStatements

open Sys2Proof Sys2Proof.Machine

/-- Settles O26: the call writes npc into the entry at its `SP`, and the return pops that same entry. -/
theorem callThenReturn : Obligations.CallThenReturn := by
  intro nnn s hsp
  obtain ⟨j, hj⟩ : ∃ j : Fin 15, s.sp.toNat = j.val := ⟨⟨s.sp.toNat, hsp⟩, rfl⟩
  refine ⟨_, exec_call_of_sp nnn hj, fun u husp hustack => ?_⟩
  have hpop : u.sp.toNat = j.castSucc.val + 1 := by rw [husp, Fin.val_castSucc]; bv_omega
  refine ⟨_, exec_ret_of_sp hpop, ?_, ?_, fun k hk => ?_⟩
  · simp [hustack]
  · simp [← hj]
  · have hne : j.val ≠ k.val := by omega
    simp [hustack, hne]

/-- Settles O21: the jump always completes, with `addrOperand` as its target. -/
theorem jumpSetsPc : Obligations.JumpSetsPc := by
  intro nnn s
  rw [← addrOperand_eq_ofNat]
  exact ⟨formatA_toNat 0x1 nnn, rfl⟩

/-- Settles O22, by the check on `SP`: below 15 the push, from 15 on the raise of R171's table. -/
theorem callPushesOrOverflows : Obligations.CallPushesOrOverflows :=
  fun nnn _ => ⟨formatA_toNat 0x2 nnn, fun _ => exec_call_of_sp nnn, fun hfull => exec_of_raises (if_pos hfull)⟩

/-- Settles O23, by the check on `SP`: above 0 the pop, at 0 the raise of R171's table. -/
theorem returnPopsOrUnderflows : Obligations.ReturnPopsOrUnderflows :=
  fun _ => ⟨rfl, fun _ => exec_ret_of_sp, fun hempty => exec_of_raises (if_pos hempty)⟩

/-- Settles O25: the target is the sum, which `State.offsetTarget_toNat` finds unreduced. -/
theorem offsetJumpIsNotReduced : Obligations.OffsetJumpIsNotReduced :=
  fun nnn s => ⟨formatA_toNat 0xB nnn, s.offsetTarget nnn, s.offsetTarget_toNat nnn, rfl⟩

end ControlStatements

/-! PROOFS. Skips (family 42_skip): where a skip leaves the state, with its test read as a proposition, and the
statements settled from it. -/

namespace Sys2Proof.Machine

/-- A skip completes with `PC` moved by its test alone (R112). The instructions test a `Bool`; `h` gives the
proposition that the rule of each states. -/
theorem State.skipIf_complete {c : Bool} {p : Prop} [Decidable p] (s : State) (h : c = true ↔ p) :
    (s.skipIf c).complete = { s with pc := if p then s.pc + 2 else s.pc, mode := .running } := by
  have hpc : (s.skipIf c).pc = if p then s.pc + 2 else s.pc := if_congr h rfl rfl
  rw [← hpc]
  rfl

/-- An instruction that skips on the equality of two bytes (R113, R115). -/
theorem State.skipIf_beq_complete (s : State) (a b : Byte) :
    (s.skipIf (a == b)).complete = { s with pc := if a = b then s.pc + 2 else s.pc, mode := .running } :=
  s.skipIf_complete beq_iff_eq

/-- An instruction that skips on the inequality of two bytes (R114, R116). -/
theorem State.skipIf_bne_complete (s : State) (a b : Byte) :
    (s.skipIf (a != b)).complete = { s with pc := if a ≠ b then s.pc + 2 else s.pc, mode := .running } :=
  s.skipIf_complete bne_iff_ne

end Sys2Proof.Machine

/-! ### The statements on the skips -/

section SkipStatements

open Sys2Proof Sys2Proof.Machine

/-- Settles O27: format `XB` with the families 3 and 4, and the skip on `V[X]` against the byte. -/
theorem byteSkips : Obligations.ByteSkips := fun x nn s =>
  ⟨formatXB_toNat 0x3 x nn, formatXB_toNat 0x4 x nn,
    congrArg Host.Outcome.next (s.skipIf_beq_complete s.v[x] nn),
    congrArg Host.Outcome.next (s.skipIf_bne_complete s.v[x] nn)⟩

/-- Settles O28: format `XY` with the families 5 and 9, and the skip on `V[X]` against `V[Y]`. -/
theorem registerSkips : Obligations.RegisterSkips := fun x y s =>
  ⟨formatXY_toNat 0x5 x y 0x0, formatXY_toNat 0x9 x y 0x0,
    congrArg Host.Outcome.next (s.skipIf_beq_complete s.v[x] s.v[y]),
    congrArg Host.Outcome.next (s.skipIf_bne_complete s.v[x] s.v[y])⟩

end SkipStatements

/-! PROOFS. Load, arithmetic, logic, shift and random (family 43_alu): the byte operations and the flags as numbers,
the flag register as an operand, the random byte, and the statements settled from them. -/

namespace Sys2Proof

/-- An opcode of family 8 as a number, with the function nibble in the constant (R72, R75). -/
theorem formatXY_family8_toNat (x y : Reg) (fn : BitVec 4) :
    (formatXY 0x8 x y fn).toNat = 0x8000 + fn.toNat + 256 * x.val + 16 * y.val := by
  rw [formatXY_toNat, Nat.add_right_comm _ (16 * y.val), Nat.add_right_comm _ (256 * x.val)]
  rfl

end Sys2Proof

namespace Sys2Proof.Machine

/-! ### The byte operations as numbers (R121, R127 to R131) -/

theorem byte_add_eq_ofNat (a b : Byte) : a + b = BitVec.ofNat 8 ((a.toNat + b.toNat) % 256) := by
  bv_omega

theorem byte_sub_eq_ofNat (a b : Byte) : a - b = BitVec.ofNat 8 ((256 + a.toNat - b.toNat) % 256) := by
  bv_omega

theorem byte_shiftRight_one_eq_ofNat (a : Byte) : a >>> 1 = BitVec.ofNat 8 (a.toNat / 2) := by
  bv_omega

theorem byte_shiftLeft_one_eq_ofNat (a : Byte) : a <<< 1 = BitVec.ofNat 8 (2 * a.toNat % 256) := by
  bv_omega

/-! ### The flags as numbers (R22, R129, R131) -/

theorem flagByte_toNat (c : Bool) : (flagByte c).toNat = c.toNat := by
  cases c <;> rfl

theorem flagByte_eq_ofNat (c : Bool) : flagByte c = BitVec.ofNat 8 c.toNat := by
  rw [← flagByte_toNat, BitVec.ofNat_toNat, BitVec.setWidth_eq]

theorem flagByte_decide (p : Prop) [Decidable p] : flagByte (decide p) = if p then 1 else 0 :=
  if_congr decide_eq_true_iff rfl rfl

theorem flagByte_decide_toNat (p : Prop) [Decidable p] : (flagByte (decide p)).toNat = if p then 1 else 0 := by
  rw [flagByte_toNat, Bool.toNat, Bool.cond_decide]

theorem flagByte_decide_eq_ofNat (p : Prop) [Decidable p] :
    flagByte (decide p) = BitVec.ofNat 8 (if p then 1 else 0) := by
  rw [flagByte_eq_ofNat, Bool.toNat, Bool.cond_decide]

theorem shiftedOutRight_toNat (a : Byte) : (shiftedOutRight a).toNat = a.toNat % 2 := by
  rw [shiftedOutRight, BitVec.getLsbD, Nat.toNat_testBit, pow_zero, Nat.div_one]

theorem shiftedOutLeft_toNat (a : Byte) : (shiftedOutLeft a).toNat = a.toNat / 128 := by
  have hbit : a.toNat / 128 < 2 := by omega
  rw [shiftedOutLeft, BitVec.getLsbD, Nat.toNat_testBit, Nat.mod_eq_of_lt hbit]

/-! ### The flag register as an operand (R126, R133)

The flag is written first, so it is what the second statement reads from, or replaces in, register 15. -/

theorem State.setV_setV_same (s : State) (x : Reg) (a b : Byte) : (s.setV x a).setV x b = s.setV x b := by
  simp [State.setV]

theorem State.getV_setFlag_flag (s : State) (c : Bool) : (s.setFlag c).getV 15 = flagByte c :=
  s.getV_setV_same 15 (flagByte c)

theorem State.getV_setFlag_other (s : State) {r : Reg} (h : r ≠ 15) (c : Bool) : (s.setFlag c).getV r = s.getV r :=
  s.setFlag_v_other r c h

/-- `Y = 15` alone: the flag is the second operand, and the result leaves it in place. -/
theorem next_setResult_flag_right (s : State) {r : Reg} (h : r ≠ 15) {c : Bool} {f : Byte → Byte → Byte}
    {flag result : Byte} (hflag : flagByte c = flag) (hresult : f (s.getV r) (flagByte c) = result) :
    (.next ((s.setFlag c).setResult r 15 f).complete : Result) =
      .next { s with v := (s.v.set 15 flag).set r result, mode := .running } := by
  rw [State.setResult_eq, s.getV_setFlag_other h, s.getV_setFlag_flag, hresult, ← hflag]
  rfl

/-- `X = 15` alone: the flag is the first operand, and the result replaces it. -/
theorem next_setResult_flag_left (s : State) {r : Reg} (h : r ≠ 15) {c : Bool} {f : Byte → Byte → Byte}
    {result : Byte} (hresult : f (flagByte c) (s.getV r) = result) :
    (.next ((s.setFlag c).setResult 15 r f).complete : Result) =
      .next { s with v := s.v.set 15 result, mode := .running } := by
  rw [State.setResult_eq, s.getV_setFlag_other h, s.getV_setFlag_flag, hresult, State.setFlag, regF,
    s.setV_setV_same]
  rfl

/-- `X = Y = 15`: the flag is both operands, and the result replaces it. -/
theorem next_setResult_flag_both (s : State) {c : Bool} {f : Byte → Byte → Byte} {result : Byte}
    (hresult : f (flagByte c) (flagByte c) = result) :
    (.next ((s.setFlag c).setResult 15 15 f).complete : Result) =
      .next { s with v := s.v.set 15 result, mode := .running } := by
  rw [State.setResult_eq, s.getV_setFlag_flag, hresult, State.setFlag, regF, s.setV_setV_same]
  rfl

/-! ### The results that have the flag as an operand (R133) -/

section FlagOperand

variable (a : Byte) (p : Prop) [Decidable p]

theorem byte_add_flag : a + flagByte (decide p) = BitVec.ofNat 8 ((a.toNat + if p then 1 else 0) % 256) := by
  rw [byte_add_eq_ofNat, flagByte_decide_toNat]

theorem flag_add_byte : flagByte (decide p) + a = BitVec.ofNat 8 (((if p then 1 else 0) + a.toNat) % 256) := by
  rw [byte_add_eq_ofNat, flagByte_decide_toNat]

theorem byte_sub_flag : a - flagByte (decide p) = BitVec.ofNat 8 ((256 + a.toNat - if p then 1 else 0) % 256) := by
  rw [byte_sub_eq_ofNat, flagByte_decide_toNat]

theorem flag_sub_byte : flagByte (decide p) - a = BitVec.ofNat 8 ((256 + (if p then 1 else 0) - a.toNat) % 256) := by
  rw [byte_sub_eq_ofNat, flagByte_decide_toNat]

/-- The carry of a byte added to itself, added to itself. -/
theorem carry_add_carry : flagByte (carryOut a a) + flagByte (carryOut a a) =
    BitVec.ofNat 8 ((2 * if 255 < 2 * a.toNat then 1 else 0) % 256) := by
  rw [carryOut, byte_add_eq_ofNat, flagByte_decide_toNat, ← two_mul, ← two_mul]

/-- A flag is 0 or 1, so that a right shift leaves nothing of it. -/
theorem flag_shiftRight_one (c : Bool) : flagByte c >>> 1 = 0 := by
  cases c <;> rfl

theorem shiftedOutLeft_shiftLeft_one :
    flagByte (shiftedOutLeft a) <<< 1 = BitVec.ofNat 8 (2 * (a.toNat / 128) % 256) := by
  rw [byte_shiftLeft_one_eq_ofNat, flagByte_toNat, shiftedOutLeft_toNat]

end FlagOperand

/-! ### The random byte (R132) -/

theorem exec_rnd (x : Reg) (nn : Byte) (s : State) : exec (.rnd x nn) s = .next { s with
    v := s.v.set x (s.nextRandom &&& nn)
    randoms := s.randoms.tail
    randomDraws := s.randomDraws + 1
    mode := .running } := rfl

end Sys2Proof.Machine

/-! ### The statements on load, arithmetic, logic, shift and random -/

section AluStatements

open Sys2Proof Sys2Proof.Machine

/-- Settles O34, cell by cell of the table of R133: which operand is the flag register decides how the flag enters the
result, and the result is then a number as the byte operations are. -/
theorem flagRegisterAsOperand : Obligations.FlagRegisterAsOperand := by
  rintro r s hr _ _ rfl rfl
  refine ⟨?_, ?_, ?_, ?_, ?_, ?_, ?_, ?_, ?_, fun y => ?_, fun y => ?_⟩
  · exact next_setResult_flag_right s hr (flagByte_decide_eq_ofNat _) (byte_add_flag _ _)
  · exact next_setResult_flag_right s hr (flagByte_decide_eq_ofNat _) (byte_sub_flag _ _)
  · exact next_setResult_flag_right s hr (flagByte_decide_eq_ofNat _) (flag_sub_byte _ _)
  · exact next_setResult_flag_left s hr (flag_add_byte _ _)
  · exact next_setResult_flag_left s hr (flag_sub_byte _ _)
  · exact next_setResult_flag_left s hr (byte_sub_flag _ _)
  · exact next_setResult_flag_both s (carry_add_carry _)
  · exact next_setResult_flag_both s (BitVec.sub_self _)
  · exact next_setResult_flag_both s (BitVec.sub_self _)
  · exact next_setResult_flag_both s (flag_shiftRight_one _)
  · exact next_setResult_flag_both s (shiftedOutLeft_shiftLeft_one _)

/-- Settles O29: format `XB` with the families 6 and 7, and one register write, of the byte or of the sum. -/
theorem loadAndAddByte : Obligations.LoadAndAddByte := by
  intro x nn s
  rw [← byte_add_eq_ofNat]
  exact ⟨formatXB_toNat 0x6 x nn, formatXB_toNat 0x7 x nn, rfl, rfl⟩

/-- Settles O30: functions 0 to 3 of family 8, each one register write of the result of R122 to R125. -/
theorem copyAndLogic : Obligations.CopyAndLogic := fun x y _ =>
  ⟨formatXY_family8_toNat x y 0x0, formatXY_family8_toNat x y 0x1, formatXY_family8_toNat x y 0x2,
    formatXY_family8_toNat x y 0x3, rfl, rfl, rfl, rfl⟩

/-- Settles O31: `w` is the register file after the write of the carry, and the sum is read from it as a number. -/
theorem addWithCarry : Obligations.AddWithCarry := by
  intro x y s w hw
  rw [← flagByte_decide] at hw
  rw [← byte_add_eq_ofNat, hw]
  exact ⟨formatXY_family8_toNat x y 0x4, rfl, s.setFlag_v_other x _, s.setFlag_v_other y _⟩

/-- Settles O32: `w` and `u` are the register file after the write of each comparison, and each difference is read
from it as a number. -/
theorem subtractions : Obligations.Subtractions := by
  intro x y s w u hw hu
  rw [← flagByte_decide] at hw hu
  rw [← byte_sub_eq_ofNat, ← byte_sub_eq_ofNat, hw, hu]
  exact ⟨formatXY_family8_toNat x y 0x5, formatXY_family8_toNat x y 0x7, rfl, rfl,
    fun hx => ⟨s.setFlag_v_other x _ hx, s.setFlag_v_other x _ hx⟩,
    fun hy => ⟨s.setFlag_v_other y _ hy, s.setFlag_v_other y _ hy⟩⟩

/-- Settles O33: `w` and `u` are the register file after the write of the bit shifted out, and each shift is read from
it as a number. -/
theorem shifts : Obligations.Shifts := by
  intro x y s w u hw hu
  rw [← shiftedOutRight_toNat, ← flagByte_eq_ofNat] at hw
  rw [← shiftedOutLeft_toNat, ← flagByte_eq_ofNat] at hu
  rw [← byte_shiftRight_one_eq_ofNat, ← byte_shiftLeft_one_eq_ofNat, hw, hu]
  exact ⟨formatXY_family8_toNat x y 0x6, formatXY_family8_toNat x y 0xE, rfl, rfl,
    fun hx => ⟨s.setFlag_v_other x _ hx, s.setFlag_v_other x _ hx⟩⟩

/-- Settles O35, by the byte that `exec_rnd` masks: the scheduled one, or the free one, which leaves the empty schedule
empty. -/
theorem randomUnderMask : Obligations.RandomUnderMask := by
  refine fun x nn s => ⟨formatXB_toNat 0xC x nn, fun b rest h => ?_, fun h => ⟨s.nextRandom, ?_⟩⟩
  · have hb : s.nextRandom = b := by rw [State.nextRandom, h]
    rw [exec_rnd, hb, h, List.tail_cons]
  · have htail : s.randoms.tail = s.randoms := by rw [h, List.tail_nil]
    rw [exec_rnd, htail]

end AluStatements

/-! PROOFS. The address register (family 44_index): the opcodes of family F, the values written to `I` as numbers, and
the statement settled from them. -/

namespace Sys2Proof

/-- An opcode of family F as a number, with the function byte in the constant (R72, R75). -/
theorem formatXF_familyF_toNat (x : Reg) (fn : Byte) :
    (formatXF 0xF x fn).toNat = 0xF000 + fn.toNat + 256 * x.val := by
  rw [formatXF_toNat, Nat.add_right_comm]
  rfl

end Sys2Proof

namespace Sys2Proof.Machine

/-- A byte added to a word is the sum of the two numbers modulo 65536 (R138). -/
theorem word_add_byte_eq_ofNat (a : Word) (b : Byte) :
    a + b.setWidth 16 = BitVec.ofNat 16 ((a.toNat + b.toNat) % 65536) := by
  bv_omega

/-- The font starts at address 0, so a glyph's address is 5 times its number (R51, R139). -/
theorem exec_ldFVx (x : Reg) (s : State) :
    exec (.ldFVx x) s = .next (s.setI (BitVec.ofNat 16 (5 * (s.getV x).toNat))).complete := by
  rw [exec, execLdFVx, Nat.zero_add]

end Sys2Proof.Machine

/-! ### The statement on the address register -/

section IndexStatements

open Sys2Proof Sys2Proof.Machine

/-- Settles O36: formats `A` and `XF`, and one write of `I`, of the address, of the sum, or of the glyph's address. -/
theorem addressRegister : Obligations.AddressRegister := by
  intro x nnn s
  rw [← addrOperand_eq_ofNat, ← word_add_byte_eq_ofNat]
  exact ⟨formatA_toNat 0xA nnn, formatXF_familyF_toNat x 0x1E, formatXF_familyF_toNat x 0x29, rfl, rfl, exec_ldFVx x s⟩

end IndexStatements

/-! PROOFS. Display (family 45_display): what a draw does to its cells, what drawing the same cells again does, and the
statements settled from them. -/

namespace Sys2Proof

/-- An opcode `DXYN` as a number, when `N` fits its nibble (R72, R75). -/
theorem encode_drw_toNat (x y : Reg) {n : Nat} (hn : n < 16) :
    (encode (.drw x y n)).toNat = 0xD000 + 256 * x.val + 16 * y.val + n := by
  rw [encode, formatXY_toNat, BitVec.toNat_ofNat, Nat.mod_eq_of_lt hn]
  rfl

end Sys2Proof

namespace Sys2Proof.Machine

/-! ### Drawing a list of cells (R143, R144) -/

/-- A draw flips the listed cells and no others. -/
theorem drawCells_flips_iff (fb : Frame) {cells : List Nat} (hn : cells.Nodup) (hb : ∀ j ∈ cells, j < 2048) (j : Nat) :
    (drawCells fb cells).1.getLsbD j ≠ fb.getLsbD j ↔ j ∈ cells := by
  rw [drawCells_fst, BitVec.getLsbD_xor, cellMask_getLsbD cells hn hb]
  by_cases hj : j ∈ cells <;> simp [hj]

/-- A draw reports a collision when a listed cell was set, and not otherwise. -/
theorem drawCells_hit_iff (fb : Frame) {cells : List Nat} (hn : cells.Nodup) (hb : ∀ j ∈ cells, j < 2048) :
    (drawCells fb cells).2 = true ↔ ∃ j, fb.getLsbD j = true ∧ j ∈ cells := by
  rw [drawCells_snd fb cells hn hb, List.any_eq_true]
  exact exists_congr fun _ => and_comm

/-- The mask of a draw does not depend on the framebuffer, so a second draw undoes the first. -/
theorem drawCells_twice_fst (fb : Frame) (cells : List Nat) : (drawCells (drawCells fb cells).1 cells).1 = fb := by
  rw [drawCells_fst, drawCells_fst, BitVec.xor_assoc, BitVec.xor_self, BitVec.xor_zero]

/-- A first draw with no collision set every listed cell, so a second one collides with any of them. -/
theorem drawCells_twice_hit (fb : Frame) {cells : List Nat} (hn : cells.Nodup) (hb : ∀ j ∈ cells, j < 2048) {j : Nat}
    (hj : j ∈ cells) (hmiss : (drawCells fb cells).2 = false) : (drawCells (drawCells fb cells).1 cells).2 = true := by
  have hclear : fb.getLsbD j = false := Bool.eq_false_iff.mpr fun hset =>
    Bool.eq_false_iff.mp hmiss ((drawCells_hit_iff fb hn hb).mpr ⟨j, hset, hj⟩)
  have hset : (drawCells fb cells).1.getLsbD j = true := by
    simpa [hclear] using (drawCells_flips_iff fb hn hb j).mpr hj
  exact (drawCells_hit_iff _ hn hb).mpr ⟨j, hset, hj⟩

/-! ### The instruction (R143) -/

/-- `DXYN` in bounds, or with no rows, completes with its cells drawn. -/
theorem exec_drw_of_fits (x y : Reg) {n : Nat} (s : State) (h : n = 0 ∨ s.i.toNat + n - 1 ≤ 0xFFF) :
    exec (.drw x y n) s = .next ((s.setScreen (s.drawn x y n).1).setFlag (s.drawn x y n).2).complete :=
  congrArg Host.Outcome.next (s.access_of_fits _ _ _ (by omega))

/-- What a draw leaves depends on the framebuffer, memory, `I` and the two coordinates alone. -/
theorem State.drawn_congr {s u : State} {x y : Reg} (n : Nat) (hmem : u.mem = s.mem) (hi : u.i = s.i)
    (hx : u.getV x = s.getV x) (hy : u.getV y = s.getV y) :
    u.drawn x y n = drawCells u.fb (spriteCells s.mem s.i.toNat (s.getV x) (s.getV y) n) := by
  rw [State.drawn, hmem, hi, hx, hy]

theorem flagByte_eq_zero_iff (c : Bool) : flagByte c = 0 ↔ c = false := by
  cases c <;> decide

end Sys2Proof.Machine

/-! ### The statements on the display -/

section DisplayStatements

open Sys2Proof Sys2Proof.Machine

/-- Settles O39: a sprite of up to 15 rows addresses no cell twice, so its draw flips exactly the addressed cells and
reports exactly the set ones among them. -/
theorem drawSprite : Obligations.DrawSprite := by
  intro x y n s hn hfits
  have hnodup := spriteCells_nodup s.mem s.i.toNat (s.getV x) (s.getV y) n (by omega)
  have hlt := spriteCells_lt s.mem s.i.toNat (s.getV x) (s.getV y) n
  have hmem := mem_spriteCells s.mem s.i.toNat (s.getV x) (s.getV y) n
  refine ⟨encode_drw_toNat x y hn, (s.drawn x y n).1, (s.drawn x y n).2, exec_drw_of_fits x y s hfits, ?_, ?_⟩
  · exact fun j _ => (drawCells_flips_iff s.fb hnodup hlt j).trans (hmem j)
  · exact (drawCells_hit_iff s.fb hnodup hlt).trans (exists_congr fun j => and_congr_right fun _ => hmem j)

/-- Settles O41: both draws draw the same list of cells, the second on the framebuffer the first left. -/
theorem drawTwiceRestores : Obligations.DrawTwiceRestores := by
  intro x y n s t u w hn hfits ht hfb hmem hi hx hy hw
  rw [exec_drw_of_fits x y s hfits] at ht
  rw [exec_drw_of_fits x y u (hi ▸ hfits), State.drawn_congr n hmem hi hx hy, hfb] at hw
  cases ht
  cases hw
  refine ⟨drawCells_twice_fst _ _, fun ⟨j, hj⟩ hflag => ?_⟩
  have hmiss : (s.drawn x y n).2 = false :=
    (flagByte_eq_zero_iff _).mp ((State.getV_setFlag_flag _ _).symm.trans hflag)
  have hhit := drawCells_twice_hit s.fb (spriteCells_nodup _ _ _ _ n (by omega)) (spriteCells_lt _ _ _ _ n)
    ((mem_spriteCells ..).mpr hj) hmiss
  exact (State.getV_setFlag_flag _ _).trans (congrArg flagByte hhit)

/-- Settles O38: the framebuffer becomes the zero vector, whose every cell is 0. -/
theorem clearScreen : Obligations.ClearScreen :=
  fun _ => ⟨rfl, 0, fun _ _ => BitVec.getLsbD_zero, rfl⟩

end DisplayStatements

/-! PROOFS. Keypad (family 46_keypad): the key skips on a code of a key, the least pressed key of a latch, and the
statements settled from them. -/

namespace Sys2Proof

/-- An opcode of family E as a number, with the function byte in the constant (R72, R75). -/
theorem formatXF_familyE_toNat (x : Reg) (fn : Byte) :
    (formatXF 0xE x fn).toNat = 0xE000 + fn.toNat + 256 * x.val := by
  rw [formatXF_toNat, Nat.add_right_comm]
  rfl

end Sys2Proof

namespace Sys2Proof.Machine

/-! ### The key skips (R148, R149) -/

/-- `EX9E` with the code of a key completes and skips on that key's bit of the latch (R148). -/
theorem exec_skp_of_le {x : Reg} {s : State} (h : s.v[x].toNat ≤ 15) :
    exec (.skp x) s = .next { s with
      pc := if s.k.getLsbD s.v[x].toNat = true then s.pc + 2 else s.pc
      mode := .running } := by
  have hr : raisesAs s (.skp x) = none := if_neg (Nat.not_lt.mpr h)
  exact (exec_of_completes hr nofun).trans (congrArg Host.Outcome.next (s.skipIf_complete Iff.rfl))

/-- `EXA1` with the code of a key completes and skips unless that key's bit of the latch is set (R149). -/
theorem exec_sknp_of_le {x : Reg} {s : State} (h : s.v[x].toNat ≤ 15) :
    exec (.sknp x) s = .next { s with
      pc := if s.k.getLsbD s.v[x].toNat = true then s.pc else s.pc + 2
      mode := .running } := by
  have hc : (!s.keyPressed (s.getV x).toNat) = true ↔ ¬ s.k.getLsbD s.v[x].toNat = true := by
    rw [Bool.not_eq_true, Bool.not_eq_true']
    rfl
  have hr : raisesAs s (.sknp x) = none := if_neg (Nat.not_lt.mpr h)
  rw [← ite_not]
  exact (exec_of_completes hr nofun).trans (congrArg Host.Outcome.next (s.skipIf_complete hc))

/-! ### The wait for a key (R150) -/

/-- A pressed key with no pressed key below it is the one `leastKey` finds. -/
theorem State.leastKey_eq_some {s : State} {key : Nat} (hlt : key < 16) (hkey : s.k.getLsbD key = true)
    (hbelow : ∀ l, l < key → s.k.getLsbD l = false) : s.leastKey = some key := by
  rcases leastKeyFrom_spec s.k 0 16 with ⟨-, hnone⟩ | ⟨j, hj, -, -, hset, hmin⟩
  · simp [hnone key key.zero_le (by omega)] at hkey
  · have hle : key ≤ j := not_lt.mp fun h => by simp [hbelow j h] at hset
    have hge : j ≤ key := not_lt.mp fun h => by simp [hmin key key.zero_le h] at hkey
    rw [State.leastKey, hj, le_antisymm hge hle]

/-- `FX0A` with no key pressed goes back to its own address to wait (R150). -/
theorem exec_ldVxK_of_noKey (x : Reg) {s : State} (h : s.k = 0) :
    exec (.ldVxK x) s = .next { s with pc := s.pc - 2, mode := .awaitingKey } := by
  rcases execLdVxK_cases x s _ rfl with ⟨-, hwait⟩ | ⟨_, hpressed, -⟩
  · exact congrArg Host.Outcome.next hwait
  · exact absurd h hpressed

/-- `FX0A` with a key pressed completes with the least one in `V[X]` (R150). -/
theorem exec_ldVxK_of_leastKey (x : Reg) {s : State} {key : Nat} (h : s.leastKey = some key) :
    exec (.ldVxK x) s = .next { s with v := s.v.set x (BitVec.ofNat 8 key), mode := .running } := by
  rw [exec, execLdVxK, h]
  rfl

end Sys2Proof.Machine

/-! ### The statements on the keypad -/

section KeypadStatements

open Sys2Proof Sys2Proof.Machine

/-- Settles O43, by the check on the code: up to 15 the skip, above 15 the raise of R171's table. -/
theorem keySkips : Obligations.KeySkips := fun x _ =>
  ⟨formatXF_familyE_toNat x 0x9E, formatXF_familyE_toNat x 0xA1,
    fun hle => ⟨exec_skp_of_le hle, exec_sknp_of_le hle⟩,
    fun hgt => ⟨exec_of_raises (if_pos hgt), exec_of_raises (if_pos hgt)⟩⟩

/-- Settles O44: the latch 0 waits, and the key that the hypotheses describe is the one `leastKey` finds. -/
theorem waitForKey : Obligations.WaitForKey := fun x _ =>
  ⟨formatXF_familyF_toNat x 0x0A, exec_ldVxK_of_noKey x, fun key hkey hbelow =>
    exec_ldVxK_of_leastKey x (State.leastKey_eq_some key.isLt hkey hbelow)⟩

end KeypadStatements

/-! PROOFS. Timers (family 47_timers): the statement settled from the words of format `XF`, family F, and from the
effects of the three transfers. -/

/-! ### The statement on the timers -/

section TimerStatements

open Sys2Proof Sys2Proof.Machine

/-- Settles O37: none of the three transfers raises, and each effect is one write, of `V[X]`, of `DT` or of `ST`. -/
theorem timerTransfers : Obligations.TimerTransfers := fun x _ =>
  ⟨formatXF_familyF_toNat x 0x07, formatXF_familyF_toNat x 0x15, formatXF_familyF_toNat x 0x18,
    exec_of_completes rfl nofun, exec_of_completes rfl nofun, exec_of_completes rfl nofun⟩

end TimerStatements

/-! PROOFS. Memory transfer, fatal errors and the remaining statements (families 48_memory_transfer and 60_exceptions):
the access check as one bound, the digits read back, the run state a completion leaves, and the statements settled from
them. -/

namespace Sys2Proof.Machine

/-! ### The access check of a transfer of `n + 1` bytes, by the address of its last byte (R54, R171) -/

theorem dataRaise_of_fits {s : State} {n : Nat} (h : s.i.toNat + n ≤ 0xFFF) : dataRaise s (n + 1) = none :=
  if_neg (by omega)

theorem dataRaise_of_exceeds {s : State} {n : Nat} (h : 0xFFF < s.i.toNat + n) :
    dataRaise s (n + 1) = some (.memoryOutOfBounds, max s.i.toNat 0x1000) :=
  if_pos (by omega)

/-! ### The decimal digits in memory (R159) -/

/-- The digits of a byte stored at `a` read back there as numbers, hundreds first. -/
theorem Memory.read_writeBytes_decimalDigits (m : Memory) (a : Nat) (b : Byte) :
    ((m.writeBytes a (decimalDigits b)).read a).toNat = b.toNat / 100 ∧
    ((m.writeBytes a (decimalDigits b)).read (a + 1)).toNat = b.toNat / 10 % 10 ∧
    ((m.writeBytes a (decimalDigits b)).read (a + 2)).toNat = b.toNat % 10 := by
  have stored (j : Nat) (hj : j < 3) := m.read_writeBytes_inside a j (decimalDigits b) hj
  have small {d : Nat} (hd : d < 256) : (BitVec.ofNat 8 d).toNat = d := Nat.mod_eq_of_lt hd
  exact ⟨(congrArg BitVec.toNat (stored 0 (by decide))).trans (small (by omega)),
    (congrArg BitVec.toNat (stored 1 (by decide))).trans (small (by omega)),
    (congrArg BitVec.toNat (stored 2 (by decide))).trans (small (by omega))⟩

/-! ### A completion does not halt (R95, R173) -/

theorem modeAfter_ne_halted (s : State) (i : Instr) (c : Cause) (n : Nat) : modeAfter s i ≠ .halted c n := by
  intro h
  have hterminal := modeAfter_terminal s i
  rw [h] at hterminal
  cases hterminal

/-- An answered instruction ends in `Halted` with exactly the cause and the value that R171's table gives it. -/
theorem exec_halted_iff {i : Instr} {s t : State} {c : Cause} {n : Nat} (h : exec i s = .next t) :
    t.mode = .halted c n ↔ raisesAs s i = some (c, n) := by
  rcases exec_next_cases h with ⟨c', n', hr, rfl⟩ | ⟨hr, -, rfl⟩
  · simp [hr]
  · simp [hr, modeAfter_ne_halted]

/-- An answered instruction that ends in `Halted` has done nothing but raise (R173). -/
theorem eq_raise_of_exec_halted {i : Instr} {s t : State} {c : Cause} {n : Nat} (h : exec i s = .next t)
    (hm : t.mode = .halted c n) : t = s.raise c n :=
  Host.Outcome.next.inj (h.symm.trans (exec_of_raises ((exec_halted_iff h).mp hm)))

end Sys2Proof.Machine

/-! ### The statements on memory transfer -/

section TransferStatements

open Sys2Proof Sys2Proof.Machine

/-- Settles O45: in bounds one block of three digits is written at `I`, out of bounds the access check raises. -/
theorem storeDigits : Obligations.StoreDigits := by
  intro x s
  refine ⟨formatXF_familyF_toNat x 0x33, fun hfits => ?_, fun hout => exec_of_raises (dataRaise_of_exceeds hout)⟩
  obtain ⟨hundreds, tens, ones⟩ := s.mem.read_writeBytes_decimalDigits s.i.toNat s.v[x]
  exact ⟨s.mem.writeBytes s.i.toNat (decimalDigits s.v[x]), exec_of_completes (dataRaise_of_fits hfits) nofun,
    hundreds, tens, ones, fun a ha => effect_read (i := .ldBVx x) s ha⟩

/-- Settles O46: in bounds one block of registers is written at `I`, out of bounds the access check raises. -/
theorem storeRegisters : Obligations.StoreRegisters := by
  intro x s
  refine ⟨formatXF_familyF_toNat x 0x55, fun hfits => ?_, fun hout => exec_of_raises (dataRaise_of_exceeds hout)⟩
  exact ⟨s.mem.writeBytes s.i.toNat (s.regsUpTo x), exec_ldMemVx_of_fits x s hfits,
    fun j hj => s.read_writeBytes_regsUpTo s.mem s.i.toNat hj, fun a ha => effect_read (i := .ldMemVx x) s ha⟩

/-- Settles O47: in bounds the register file is `regsLoaded`, out of bounds the access check raises. -/
theorem loadRegisters : Obligations.LoadRegisters := by
  intro x s
  refine ⟨formatXF_familyF_toNat x 0x65, fun hfits => ?_, fun hout => exec_of_raises (dataRaise_of_exceeds hout)⟩
  exact ⟨s.regsLoaded x, exec_of_completes (dataRaise_of_fits hfits) nofun, fun j => s.regsLoaded_get x j j.isLt⟩

end TransferStatements

/-! ### The statements on fatal errors, on the stop and on the return beyond the stack -/

section ExceptionStatements

open Sys2Proof Sys2Proof.Machine

/-- Settles O13, from the two answers of an instruction: the raise of the table, or a completion, which never halts. -/
theorem raisesExactlyAsTabulated : Obligations.RaisesExactlyAsTabulated :=
  fun _ _ _ _ _ h => exec_halted_iff h

/-- Settles O12, by the five cases of a step: a failed fetch has changed the sample only, and an illegal word or an
instruction takes the advance of `PC` back. -/
theorem haltIsPrecise : Obligations.HaltIsPrecise := by
  intro s t c n hrun h hm
  rcases step_cases s t h with ⟨hterminal, -⟩ | ⟨-, -, rfl⟩ |
    ⟨-, ⟨-, rfl⟩ | ⟨-, -, rfl⟩ | ⟨-, i, u, -, hu, rfl⟩⟩
  · cases hrun.symm.trans hterminal
  · cases hm
  · cases hm; rfl
  · cases hm; exact State.advance_raise _ _ _
  · rw [State.endStep_mode] at hm
    rw [u.endStep_of_terminal (congrArg Mode.terminal hm), eq_raise_of_exec_halted hu hm]
    exact State.advance_raise _ _ _

/-- Settles O9: neither of the two modes is terminal, and `quit_in` is seen before the key sample is taken. -/
theorem quitStops : Obligations.QuitStops := by
  rintro s (hm | hm) hq
  · exact step_of_quit (congrArg Mode.terminal hm) hq
  · exact step_of_quit (congrArg Mode.terminal hm) hq

/-- Settles O24: `SP` is not 0, and the stack has no entry `SP - 1`. -/
theorem returnFaultsBeyondTheStack : Obligations.ReturnFaultsBeyondTheStack := by
  intro s hsp
  have hne : s.sp ≠ 0 := by bv_omega
  have hnone : s.stack[s.sp.toNat - 1]? = none := Vector.getElem?_eq_none (by omega)
  rw [exec, execRet, if_neg hne, hnone]

end ExceptionStatements
